-- ==== Sys2Proof/Word.lean ====
section
/-! DEFINITION. The words of the block: bytes, levels, command words, phase codes. -/

namespace Sys2Proof

/-- An unsigned 8-bit byte (00_scope.md R6). -/
abbrev Byte := BitVec 8

/-- A logic level: `true` is 1, high; `false` is 0, low (00_scope.md R6). -/
abbrev Level := Bool

/-- The level 1. -/
abbrev Level.high : Level := true

/-- The level 0. -/
abbrev Level.low : Level := false

/-- A command word `cmd[2:0]` (30_encoding.md R60). -/
abbrev CmdWord := BitVec 3

/-- A value of the 4-bit register `phase` (30_encoding.md R64). -/
abbrev PhaseCode := BitVec 4

/-- The nine named phase codes of 30_encoding.md R64. -/
abbrev Phase.uninit : PhaseCode := 0#4
abbrev Phase.ready : PhaseCode := 1#4
abbrev Phase.hsLow : PhaseCode := 2#4
abbrev Phase.hsHigh : PhaseCode := 3#4
abbrev Phase.sampling : PhaseCode := 4#4
abbrev Phase.validate : PhaseCode := 5#4
abbrev Phase.assemble : PhaseCode := 6#4
abbrev Phase.fatal : PhaseCode := 7#4
abbrev Phase.closed : PhaseCode := 8#4

end Sys2Proof
end

