-- ==== Sys2Proof/Syntax.lean ====
section
/-! DEFINITION. The operations of the block, one constructor per row of spec/opcode_table.json, and the
stimulus notation of 30_encoding.md R73. -/

namespace Sys2Proof

/-- The two encodings that select what the block does (30_encoding.md R60 and R64). -/
inductive Format where
  | cmd
  | phase
  deriving DecidableEq, Repr

/-- One constructor per row of the opcode table: the commands (30_encoding.md R61), then the
micro-operations (R64, R65). -/
inductive Instr where
  | nop
  | rsv1
  | init
  | rsv3
  | take (f : Bool)
  | destroy
  | rsv7
  | idleUninit
  | idleReady
  | hsLow
  | hsHigh
  | sample
  | validate
  | assemble
  | idleFatal
  | idleClosed
  | rsvPhase9
  | rsvPhase10
  | rsvPhase11
  | rsvPhase12
  | rsvPhase13
  | rsvPhase14
  | rsvPhase15
  deriving DecidableEq, Repr

/-- The encoding an operation belongs to (spec/opcode_table.json, "format"). -/
def Instr.format : Instr → Format
  | .nop | .rsv1 | .init | .rsv3 | .take _ | .destroy | .rsv7 => .cmd
  | .idleUninit | .idleReady | .hsLow | .hsHigh | .sample | .validate | .assemble
  | .idleFatal | .idleClosed | .rsvPhase9 | .rsvPhase10 | .rsvPhase11 | .rsvPhase12
  | .rsvPhase13 | .rsvPhase14 | .rsvPhase15 => .phase

/-- A segment of a `LINE` directive: `H*n` or `L*n`, `n` samples of one level (30_encoding.md R73). -/
structure Segment where
  level : Level
  count : Nat
  deriving DecidableEq, Repr

/-- One line of the stimulus notation (30_encoding.md R73). -/
inductive Stimulus where
  | nop
  | init (ok : Bool)
  | take (f : Bool)
  | destroy
  | rsv (n : Nat)
  | line (segs : List Segment)
  | timeStep
  | wait (n : Nat)
  | run
  deriving DecidableEq, Repr

end Sys2Proof
end

