-- ==== Sys2Proof/WellFormed.lean ====
section
/-! DEFINITION. Which terms of Syntax the encodings and the notation admit. -/

namespace Sys2Proof

/-- Every term of `Instr` is well formed: the one operand, `f` of `TAKE`, is one bit and takes both values
(30_encoding.md R62), and no other row has an operand (R60: `f` must be 0 for every other operation, which
the reserved rows stand for when it is not). -/
def Instr.wellFormed : Instr → Bool
  | .nop | .rsv1 | .init | .rsv3 | .destroy | .rsv7 => true
  | .take false | .take true => true
  | .idleUninit | .idleReady | .hsLow | .hsHigh | .sample | .validate | .assemble
  | .idleFatal | .idleClosed | .rsvPhase9 | .rsvPhase10 | .rsvPhase11 | .rsvPhase12
  | .rsvPhase13 | .rsvPhase14 | .rsvPhase15 => true

/-- `RSV n` names one of the three reserved command words (30_encoding.md R73, R63). -/
def reservedCmd (n : Nat) : Bool := n == 1 || n == 3 || n == 7

/-- A line of the stimulus notation is well formed: only `RSV n` has an operand that can be wrong. -/
def Stimulus.wellFormed : Stimulus → Bool
  | .rsv n => reservedCmd n
  | .nop | .init _ | .take _ | .destroy | .line _ | .timeStep | .wait _ | .run => true

end Sys2Proof
end

