-- ==== Sys2Proof/Decode.lean ====
section
/-! DEFINITION. The decoder of the two encodings of 30_encoding.md, total on any bytes, and the encoder. -/

namespace Sys2Proof

/-- Why bytes are no operation. -/
inductive Reject where
  /-- No byte is there. -/
  | noByte
  /-- A bit above the encoding's width is set: a command is always 3 bits, a phase code always 4
  (30_encoding.md R72). -/
  | tooWide
  deriving DecidableEq, Repr

/-- The command map (30_encoding.md R61), from the fields `opc = cmd[2:1]` and `f = cmd[0]` (R60). -/
def decodeCmd (w : CmdWord) : Instr :=
  match (w.extractLsb' 1 2).toNat, w.getLsbD 0 with
  | 0, false => .nop
  | 0, true => .rsv1
  | 1, false => .init
  | 1, true => .rsv3
  | 2, f => .take f
  | _, false => .destroy
  | _, true => .rsv7

/-- The micro-operation that a phase code selects (30_encoding.md R64, R65). -/
def decodePhase (p : PhaseCode) : Instr :=
  match p.toNat with
  | 0 => .idleUninit
  | 1 => .idleReady
  | 2 => .hsLow
  | 3 => .hsHigh
  | 4 => .sample
  | 5 => .validate
  | 6 => .assemble
  | 7 => .idleFatal
  | 8 => .idleClosed
  | 9 => .rsvPhase9
  | 10 => .rsvPhase10
  | 11 => .rsvPhase11
  | 12 => .rsvPhase12
  | 13 => .rsvPhase13
  | 14 => .rsvPhase14
  | _ => .rsvPhase15

/-- The width in bits of an encoding (30_encoding.md R60, R64, R72). -/
def Format.width : Format → Nat
  | .cmd => 3
  | .phase => 4

/-- Decode the first byte of a list in one of the two encodings and return the rest: the value right-aligned
in the byte, every bit above the encoding's width 0. -/
def decode (fmt : Format) : List Byte → Except Reject (Instr × List Byte)
  | [] => .error .noByte
  | b :: rest =>
    if b.toNat < 2 ^ fmt.width then
      match fmt with
      | .cmd => .ok (decodeCmd (b.setWidth 3), rest)
      | .phase => .ok (decodePhase (b.setWidth 4), rest)
    else .error .tooWide

/-- The encoding of an operation as a number: the column "encoding" of spec/opcode_table.json
(30_encoding.md R61, R64, R65). -/
def encodeValue : Instr → Nat
  | .nop => 0b000
  | .rsv1 => 0b001
  | .init => 0b010
  | .rsv3 => 0b011
  | .take false => 0b100
  | .take true => 0b101
  | .destroy => 0b110
  | .rsv7 => 0b111
  | .idleUninit => 0b0000
  | .idleReady => 0b0001
  | .hsLow => 0b0010
  | .hsHigh => 0b0011
  | .sample => 0b0100
  | .validate => 0b0101
  | .assemble => 0b0110
  | .idleFatal => 0b0111
  | .idleClosed => 0b1000
  | .rsvPhase9 => 0b1001
  | .rsvPhase10 => 0b1010
  | .rsvPhase11 => 0b1011
  | .rsvPhase12 => 0b1100
  | .rsvPhase13 => 0b1101
  | .rsvPhase14 => 0b1110
  | .rsvPhase15 => 0b1111

/-- The bytes of an operation, in its own encoding `i.format`. -/
def encode (i : Instr) : List Byte := [BitVec.ofNat 8 (encodeValue i)]

/-- A row of spec/opcode_table.json: a word `w` of the row's encoding is the row's when `w & mask = match`. -/
structure OpcodeRow where
  mnemonic : String
  format : Format
  matchBits : Nat
  mask : Nat
  deriving DecidableEq, Repr

/-- A word is the row's (spec/opcode_table.json, "match" and "mask"). -/
def OpcodeRow.covers (r : OpcodeRow) (w : Nat) : Bool := w &&& r.mask == r.matchBits

/-- The command rows of spec/opcode_table.json. -/
def cmdRows : List OpcodeRow :=
  [⟨"NOP", .cmd, 0x0, 0x7⟩, ⟨"RSV.1", .cmd, 0x1, 0x7⟩, ⟨"INIT", .cmd, 0x2, 0x7⟩, ⟨"RSV.3", .cmd, 0x3, 0x7⟩,
   ⟨"TAKE", .cmd, 0x4, 0x6⟩, ⟨"DESTROY", .cmd, 0x6, 0x7⟩, ⟨"RSV.7", .cmd, 0x7, 0x7⟩]

/-- The phase rows of spec/opcode_table.json. -/
def phaseRows : List OpcodeRow :=
  [⟨"IDLE.UNINIT", .phase, 0x0, 0xF⟩, ⟨"IDLE.READY", .phase, 0x1, 0xF⟩, ⟨"HS_LOW", .phase, 0x2, 0xF⟩,
   ⟨"HS_HIGH", .phase, 0x3, 0xF⟩, ⟨"SAMPLE", .phase, 0x4, 0xF⟩, ⟨"VALIDATE", .phase, 0x5, 0xF⟩,
   ⟨"ASSEMBLE", .phase, 0x6, 0xF⟩, ⟨"IDLE.FATAL", .phase, 0x7, 0xF⟩, ⟨"IDLE.CLOSED", .phase, 0x8, 0xF⟩] ++
  [⟨"RSV.PHASE.9", .phase, 0x9, 0xF⟩, ⟨"RSV.PHASE.10", .phase, 0xA, 0xF⟩, ⟨"RSV.PHASE.11", .phase, 0xB, 0xF⟩,
   ⟨"RSV.PHASE.12", .phase, 0xC, 0xF⟩, ⟨"RSV.PHASE.13", .phase, 0xD, 0xF⟩, ⟨"RSV.PHASE.14", .phase, 0xE, 0xF⟩,
   ⟨"RSV.PHASE.15", .phase, 0xF, 0xF⟩]

/-- The rows of one encoding. -/
def opcodeRows : Format → List OpcodeRow
  | .cmd => cmdRows
  | .phase => phaseRows

/-- The mnemonic of an operation (spec/opcode_table.json). -/
def Instr.mnemonic : Instr → String
  | .nop => "NOP"
  | .rsv1 => "RSV.1"
  | .init => "INIT"
  | .rsv3 => "RSV.3"
  | .take _ => "TAKE"
  | .destroy => "DESTROY"
  | .rsv7 => "RSV.7"
  | .idleUninit => "IDLE.UNINIT"
  | .idleReady => "IDLE.READY"
  | .hsLow => "HS_LOW"
  | .hsHigh => "HS_HIGH"
  | .sample => "SAMPLE"
  | .validate => "VALIDATE"
  | .assemble => "ASSEMBLE"
  | .idleFatal => "IDLE.FATAL"
  | .idleClosed => "IDLE.CLOSED"
  | .rsvPhase9 => "RSV.PHASE.9"
  | .rsvPhase10 => "RSV.PHASE.10"
  | .rsvPhase11 => "RSV.PHASE.11"
  | .rsvPhase12 => "RSV.PHASE.12"
  | .rsvPhase13 => "RSV.PHASE.13"
  | .rsvPhase14 => "RSV.PHASE.14"
  | .rsvPhase15 => "RSV.PHASE.15"

/-- Which encoding a bare table word is read in. The two encodings share the values 0 to 7, and a number does not
say which of the block's two selectors holds it: a word of exactly 3 bits is a command, one of exactly 4 a phase
code; of a word given in whole bytes, the first row of the table in its own order that has it decides, so a value
that fits the command port is a command and one that needs four bits a phase code.
DESIGN CHOICE (safe): see log 1. -/
def tableFormat (nbits w : Nat) : Option Format :=
  if nbits = 4 then some .phase
  else if w < 8 then some .cmd
  else if nbits = 3 then none
  else if w < 16 then some .phase
  else none

/-- The operation the decoder reads from a word numbered as spec/opcode_table.json numbers it. -/
def decodeTableWord (nbits w : Nat) : Option Instr :=
  match tableFormat nbits w with
  | none => none
  | some fmt =>
    if w < 256 then
      match decode fmt [BitVec.ofNat 8 w] with
      | .ok (i, _) => some i
      | .error _ => none
    else none

end Sys2Proof
end

