-- ==== Sys2Proof/Config.lean ====
section
/-! DEFINITION. The parameters of 00_scope.md R4 and the free values of the model. -/

namespace Sys2Proof.Config

/-- `SAT`: the value of `spinCount` that aborts a pass (R4, R94). -/
abbrev sat : Nat := 255
/-- `THRESH`: a classified duration strictly greater is bit 1 (R4, R114). -/
abbrev thresh : Nat := 30
/-- `PREAMBLE`: leading transitions that carry no bit (R4, R112). -/
abbrev preamble : Nat := 4
/-- `FRAME_BITS` (R4). -/
abbrev frameBits : Nat := 40
/-- `FRAME_BYTES` (R4): the frame space has the addresses 0 to 4 (R40). -/
abbrev frameBytes : Nat := 5
/-- `MAXTIMINGS` (R4, R5, decision D1): the one value that the source's three sentences leave.
DESIGN CHOICE (safe): not an argument of the model, see log 5. -/
abbrev maxTimings : Nat := 83
/-- `HS_LOW_TICKS` (R4, R157). -/
abbrev hsLowTicks : Nat := 18000
/-- `HS_HIGH_TICKS` (R4, R158). -/
abbrev hsHighTicks : Nat := 40
/-- `PIN` (R4): read by no rule. -/
abbrev pin : Nat := 7
/-- `SENSOR_NAME` (R4, R71). -/
abbrev sensorName : String := "dht11"
/-- `TS_WIDTH` (R4, decision D16): OPEN, the width in bits of the capture time. Free (safe): every definition and every
statement is for every width, see log 6. -/
opaque tsWidth : Nat
/-- The default of `TS_WIDTH` (R4): read by no rule. -/
abbrev tsWidthDefault : Nat := 64

/-- `toFloat` (R4, R141): a total function of the exact decimal value alone, to the pattern of the
consumer's floating-point format, which the spec leaves open. Free (safe): see log 7. -/
opaque toFloat : Rat → Nat

/-! The levels of the input ports in step number `n` where `State.inputs` names none: free values
(00_scope.md R8, 20_memory.md R47). DESIGN CHOICE (safe): see log 2. -/

opaque freeRst : Nat → Bool
opaque freeCmdValid : Nat → Bool
opaque freeCmd : Nat → CmdWord
opaque freeInitOk : Nat → Bool
opaque freeLineIn : Nat → Level
opaque freeTimeIn : Nat → BitVec tsWidth

/-! What a counter holds after an increment that does not fit its register; only in states that
10_state.md R30 says no run reaches. DESIGN CHOICE (safe): see log 8. -/

opaque freeSpinCount : Nat → BitVec 8
opaque freeTIndex : Nat → BitVec 7
opaque freeHsCount : Nat → BitVec 15

end Sys2Proof.Config
end

