-- ==== Sys2Proof/Machine/State.lean ====
section
/-! DEFINITION. The state of the block (10_state.md R10), its reset value (R29), the ways a step can stop, and the
exceptional conditions (60_exceptions.md R180). -/

namespace Sys2Proof.Machine

/-- The frame space as (address, byte) cells (20_memory.md R40). An address that no cell names reads as 0, the reset
content (10_state.md R29). Canonical form: `Memory.wf`. -/
abbrev Memory := List Host.Cell

/-- The input ports, read once per step (10_state.md R24). -/
structure PortIn where
  rst : Bool
  cmdValid : Bool
  cmd : CmdWord
  initOk : Bool
  lineIn : Level
  timeIn : BitVec Config.tsWidth
  deriving DecidableEq, Repr

/-- The registers of 10_state.md R10, and the model's own two fields. -/
structure State where
  /-- `frame[0..4]` (R11). -/
  frame : Memory
  /-- `bitCount` (R12). -/
  bitCount : BitVec 6
  /-- `spinCount` (R13). -/
  spinCount : BitVec 8
  /-- `lastLevel` (R14). -/
  lastLevel : Level
  /-- `tIndex` (R16). -/
  tIndex : BitVec 7
  /-- `hsCount` (R17). -/
  hsCount : BitVec 15
  /-- `phase` (R15). -/
  phase : PhaseCode
  /-- `force` (R19). -/
  force : Bool
  /-- `st_fresh`, `st_short`, `st_csum`, `st_abort` (R18). -/
  stFresh : Bool
  stShort : Bool
  stCsum : Bool
  stAbort : Bool
  /-- `line_oe`, `line_out` (R21). -/
  lineOe : Bool
  lineOut : Level
  /-- `rd_hum_int`, `rd_hum_frac`, `rd_tmp_int`, `rd_tmp_frac`, `rd_ts` (R22). -/
  rdHumInt : Byte
  rdHumFrac : Byte
  rdTmpInt : Byte
  rdTmpFrac : Byte
  rdTs : BitVec Config.tsWidth
  /-- `rd_valid`, `cmd_reject` (R23). -/
  rdValid : Bool
  cmdReject : Bool
  /-- The model's own field: the input ports of the coming steps, the next step's first.
  DESIGN CHOICE (safe), see log 2. -/
  inputs : List PortIn
  /-- The model's own field: the number of steps taken, the argument of every free value.
  DESIGN CHOICE (safe), see log 2. -/
  draws : Nat
  deriving DecidableEq, Repr

/-- The reset value of every register (10_state.md R29). The model's own fields start empty and at 0
(DESIGN CHOICE, log 12). -/
def State.reset : State where
  frame := []
  bitCount := 0
  spinCount := 0
  lastLevel := Level.high
  tIndex := 0
  hsCount := 0
  phase := Phase.uninit
  force := false
  stFresh := false
  stShort := false
  stCsum := false
  stAbort := false
  lineOe := false
  lineOut := Level.high
  rdHumInt := 0
  rdHumFrac := 0
  rdTmpInt := 0
  rdTmpFrac := 0
  rdTs := 0
  rdValid := false
  cmdReject := false
  inputs := []
  draws := 0

/-- Why a step stops the model. -/
inductive Fault where
  /-- Raised by the meanings of `RSV.PHASE.9` to `RSV.PHASE.15`: the spec gives a step from these phase codes no meaning and
  asks for a fault (30_encoding.md R65, 93_implementation_defined.md U5). Safe: the model stops. -/
  | reservedPhase (code : PhaseCode)
  /-- Raised by `SAMPLE` when the bit append would address a frame byte above 4: the spec gives the access no meaning
  (20_memory.md R42). Safe: the model stops. -/
  | frameAddress (addr : Nat)
  deriving DecidableEq, Repr

/-- Why a step has no meaning in the model. -/
inductive Refusal where
  /-- Raised by an arm of `exec` whose instruction has no meaning yet; no arm is left that does. Safe: the model stops. -/
  | notModelled (mnemonic : String)
  deriving DecidableEq, Repr

/-- The closed list of exceptional conditions EX1 to EX5 (60_exceptions.md R180). -/
inductive ExCond where
  | initFail
  | sampleTimeout
  | shortFrame
  | checksum
  | cmdReject
  deriving DecidableEq, Repr

end Sys2Proof.Machine
end

