-- ==== Sys2Proof/Machine/Ops.lean ====
section
/-! DEFINITION. The shared operations: the frame space, the input ports, the exceptional conditions, the attempt start,
and what every step does around its operations. -/

namespace Sys2Proof.Machine

/-- A step that ends in a next state, a fault or a refusal. -/
abbrev StepOutcome := Host.Outcome State Fault Refusal

/-- Go on from a next state; a fault or a refusal stops. -/
def andThen (o : StepOutcome) (f : State → StepOutcome) : StepOutcome :=
  match o with
  | .next s => f s
  | .fault r => .fault r
  | .refused r => .refused r

/-! ## The frame space (20_memory.md R40) -/

/-- The canonical form: addresses strictly rising, all in the space, no cell equal to what an unlisted address reads as. -/
abbrev Memory.wf (m : Memory) : Prop :=
  m.Pairwise (fun x y => x.1 < y.1) ∧ ∀ c ∈ m, c.1 < Config.frameBytes ∧ c.2 ≠ 0

/-- The byte at an address. -/
def Memory.read : Memory → Nat → Byte
  | [], _ => 0
  | (b, w) :: m, a => if a = b then w else Memory.read m a

/-- Store a byte at an address, keeping the canonical form. -/
def Memory.write : Memory → Nat → Byte → Memory
  | [], a, v => if v = 0 then [] else [(a, v)]
  | (b, w) :: m, a, v =>
    if a < b then (if v = 0 then (b, w) :: m else (a, v) :: (b, w) :: m)
    else if a = b then (if v = 0 then m else (a, v) :: m)
    else (b, w) :: Memory.write m a v

/-- `MemRead(addr, 1)` (00_scope.md R7): defined for the addresses 0 to 4 only, a fault elsewhere (20_memory.md R42, log 9). -/
def memRead (m : Memory) (a : Nat) : Except Fault Byte :=
  if a < Config.frameBytes then .ok (Memory.read m a) else .error (.frameAddress a)

/-- `MemWrite(addr, 1, v)` (00_scope.md R7): defined for the addresses 0 to 4 only, a fault elsewhere (20_memory.md R42, log 9). -/
def memWrite (m : Memory) (a : Nat) (v : Byte) : Except Fault Memory :=
  if a < Config.frameBytes then .ok (Memory.write m a v) else .error (.frameAddress a)

/-- The five bytes of the frame, `frame[0]` first. -/
def State.frameBytes (s : State) : List Byte :=
  [Memory.read s.frame 0, Memory.read s.frame 1, Memory.read s.frame 2, Memory.read s.frame 3, Memory.read s.frame 4]

/-! ## The input ports (10_state.md R24) -/

/-- The free levels of the ports in a step for which `State.inputs` names none (log 2). -/
def freePort (n : Nat) : PortIn where
  rst := Config.freeRst n
  cmdValid := Config.freeCmdValid n
  cmd := Config.freeCmd n
  initOk := Config.freeInitOk n
  lineIn := Config.freeLineIn n
  timeIn := Config.freeTimeIn n

/-- The input ports `k` steps from now, from the inputs still to come and the number of steps taken. -/
def portFrom (inputs : List PortIn) (draws k : Nat) : PortIn :=
  match inputs[k]? with
  | some p => p
  | none => freePort (draws + k)

/-- The input ports `k` steps from now (10_state.md R24). -/
def State.portAt (s : State) (k : Nat) : PortIn := portFrom s.inputs s.draws k

/-- The input ports in this step. -/
def State.port (s : State) : PortIn := s.portAt 0

/-- The command the block looks at: `cmd` if `cmd_valid = 1`, else `NOP` (44_session.md R151, 30_encoding.md R61). -/
def State.command (s : State) : CmdWord :=
  if s.port.cmdValid then s.port.cmd else 0b000#3

/-! ## Around every step (44_session.md R168) -/

/-- Every step first writes both pulse registers to 0 (10_state.md R23). -/
def State.clearPulses (s : State) : State :=
  { s with rdValid := false, cmdReject := false }

/-- Every register takes its reset value (70_reset_and_hazards.md R200); the inputs to come are no registers (log 14). -/
def State.applyReset (s : State) : State :=
  { State.reset with inputs := s.inputs, draws := s.draws }

/-- The end of a step: the ports of this step have been read (log 2). -/
def State.advance (s : State) : State :=
  { s with inputs := s.inputs.tail, draws := s.draws + 1 }

/-! ## The exceptional conditions (60_exceptions.md R180) -/

/-- `raise EXn` (00_scope.md R7): the writes that R180 lists under "recorded in". Nothing is saved and there is no return
operation (R186, R187). -/
def raise (e : ExCond) (s : State) : State :=
  match e with
  | .initFail => { s with phase := Phase.fatal }
  | .sampleTimeout => { s with stAbort := true }
  | .shortFrame => { s with stShort := true, stFresh := false }
  | .checksum => { s with stCsum := true, stFresh := false }
  | .cmdReject => { s with cmdReject := true }

/-- Raise a condition when a test holds. -/
def raiseWhen (c : Bool) (e : ExCond) (s : State) : State :=
  if c then raise e s else s

/-- A refused command (44_session.md R151, 60_exceptions.md R185): `cmd_reject` for this step and no other effect. -/
def refuseCommand (s : State) : State := raise .cmdReject s

/-! ## The attempt start (44_session.md R156) -/

/-- `StartAttempt()` (44_session.md R156). The five bytes of the frame are cleared: no cell is listed. -/
def startAttempt (s : State) : State :=
  { s with
    frame := []
    bitCount := 0
    spinCount := 0
    tIndex := 0
    lastLevel := Level.high
    stAbort := false
    hsCount := 0
    lineOe := true
    lineOut := Level.low
    phase := Phase.hsLow }

/-- The response to a verdict (44_session.md R160, 60_exceptions.md R186): success and best effort go on to `ASSEMBLE`, an
invalid attempt of a forced `TAKE` is followed by a new attempt. -/
def respond (ok : Bool) (s : State) : State :=
  if ok || !s.force then { s with phase := Phase.assemble } else startAttempt s

/-! ## Placing an operation where the next step fetches it -/

/-- Present a command word to the next step: `cmd_valid = 1`, no reset; the other ports as they were. -/
def State.placeCmd (s : State) (w : CmdWord) : State :=
  { s with inputs := { s.port with rst := false, cmdValid := true, cmd := w } :: s.inputs.tail }

/-- Select a micro-operation for the next step: its code in `phase`, no command, no reset; the other ports as they were. -/
def State.placePhase (s : State) (p : PhaseCode) : State :=
  { s with phase := p, inputs := { s.port with rst := false, cmdValid := false } :: s.inputs.tail }

end Sys2Proof.Machine
end

