-- ==== Sys2Proof/Machine/Operands.lean ====
section
/-! DEFINITION. The operands: the ports an operation reads, the incremented counters, the transition observation. -/

namespace Sys2Proof.Machine

/-- `LineRead()` (00_scope.md R7): the level of `line_in` in this step. -/
def State.lineRead (s : State) : Level := s.port.lineIn

/-- `init_ok` in this step, the second operand of `INIT` (30_encoding.md R62). -/
def State.initOk (s : State) : Bool := s.port.initOk

/-- `time_in` in this step (43_assembler.md R142). -/
def State.timeIn (s : State) : BitVec Config.tsWidth := s.port.timeIn

/-- `n` written to the 8-bit register `spinCount`; a number that does not fit leaves a free value (log 8). -/
def writeSpin (draws n : Nat) : BitVec 8 :=
  if n < 2 ^ 8 then BitVec.ofNat 8 n else Config.freeSpinCount draws

/-- `t` written to the 7-bit register `tIndex`; a number that does not fit leaves a free value (log 8). -/
def writeTIndex (draws t : Nat) : BitVec 7 :=
  if t < 2 ^ 7 then BitVec.ofNat 7 t else Config.freeTIndex draws

/-- `n` written to the 15-bit register `hsCount`; a number that does not fit leaves a free value (log 8). -/
def writeHs (draws n : Nat) : BitVec 15 :=
  if n < 2 ^ 15 then BitVec.ofNat 15 n else Config.freeHsCount draws

/-- A TransitionObservation: the duration and the new level (30_encoding.md R70). -/
structure Observation where
  duration : Nat
  level : Level
  deriving DecidableEq, Repr

/-- The 9-bit form `{duration[7:0], level}` of an observation (30_encoding.md R70). -/
def Observation.pack (o : Observation) : BitVec 9 :=
  BitVec.ofNat 8 o.duration ++ BitVec.ofBool o.level

/-- The observation that a transition in this step emits (40_sampler.md R93). -/
def State.observation (s : State) : Observation := ⟨s.spinCount.toNat, s.lineRead⟩

end Sys2Proof.Machine
end

