-- ==== Sys2Proof/Machine/Flags.lean ====
section
/-! DEFINITION. The status flags of the `VALIDATE` step and the output ports that are functions of state. -/

namespace Sys2Proof.Machine

/-- The flag writes of `VALIDATE` (42_validator.md R128): both tests are always recorded, and EX3 and EX4 are raised by the
same writes (60_exceptions.md R180). -/
def writeVerdict (short bad : Bool) (s : State) : State :=
  raiseWhen bad .checksum (raiseWhen short .shortFrame { s with stShort := short, stCsum := bad, stFresh := !short && !bad })

/-- The busy phases (44_session.md R151). -/
def busy (p : PhaseCode) : Bool :=
  p == Phase.hsLow || p == Phase.hsHigh || p == Phase.sampling || p == Phase.validate || p == Phase.assemble

/-- `status_o` (10_state.md R20), bit 7 first. -/
def State.statusO (s : State) : BitVec 8 :=
  BitVec.ofBool (s.phase == Phase.closed) ++ BitVec.ofBool (s.phase == Phase.fatal) ++
  BitVec.ofBool s.stCsum ++ BitVec.ofBool s.stShort ++ BitVec.ofBool s.stAbort ++ BitVec.ofBool s.stFresh ++
  BitVec.ofBool (busy s.phase) ++ BitVec.ofBool (s.phase == Phase.ready)

/-- `frame_o = {frame[0], frame[1], frame[2], frame[3], frame[4]}` (10_state.md R24, 20_memory.md R41). -/
def State.frameO (s : State) : BitVec 40 :=
  Memory.read s.frame 0 ++ Memory.read s.frame 1 ++ Memory.read s.frame 2 ++ Memory.read s.frame 3 ++ Memory.read s.frame 4

/-- `phase_o` (10_state.md R24). -/
def State.phaseO (s : State) : BitVec 4 := s.phase

end Sys2Proof.Machine
end

