-- ==== Sys2Proof/Machine/Decoder.lean ====
section
/-! DEFINITION. The Frame Decoder (41_decoder.md): the threshold comparator, the bit append, the streaming step that `SAMPLE`
applies, and the decoder as a function of a list of observations. -/

namespace Sys2Proof.Machine

/-- The threshold comparator (41_decoder.md R114): unsigned and strict. -/
def classify (d : Nat) : Bool := decide (d > Config.thresh)

/-- Whether the observation with index `i` is classified (41_decoder.md R112, R113). -/
def classified (i : Nat) : Bool := decide (i ≥ Config.preamble) && i &&& 1 == 0

/-- `((old << 1) | b) & 0xFF` (41_decoder.md R115). -/
def shiftIn (old : Byte) (b : Bool) : Byte := (old <<< 1) ||| (BitVec.ofBool b).setWidth 8

/-- The bit append and the bit count (41_decoder.md R115, R116). The byte address is `bitCount >> 3`; above 4 the access has no
meaning (20_memory.md R42), so `bitCount` is never incremented beyond 40. -/
def bitAppend (b : Bool) (m : Memory) (bc : BitVec 6) : Except Fault (Memory × BitVec 6) :=
  let k := bc.toNat >>> 3
  match memRead m k with
  | .error r => .error r
  | .ok old =>
    match memWrite m k (shiftIn old b) with
    | .error r => .error r
    | .ok m' => .ok (m', bc + 1)

/-- `DecodeStep(i, d)` (41_decoder.md R117). -/
def decodeStep (i d : Nat) (m : Memory) (bc : BitVec 6) : Except Fault (Memory × BitVec 6) :=
  if classified i then bitAppend (classify d) m bc else .ok (m, bc)

/-- `Decode(obs)` from index `i`, `bitCount` and the five bytes on (41_decoder.md R110); no meaning where the byte address is
above 4. -/
def decodeFrom (i : Nat) (frame : List Byte) (bitCount : Nat) : List Observation → Option (List Byte × Nat)
  | [] => some (frame, bitCount)
  | o :: obs =>
    if i ≥ 4 ∧ i % 2 = 0 then
      match frame[bitCount / 8]? with
      | none => none
      | some old =>
        decodeFrom (i + 1) (frame.set (bitCount / 8) (BitVec.ofNat 8 (2 * old.toNat + (if o.duration > 30 then 1 else 0))))
          (bitCount + 1) obs
    else decodeFrom (i + 1) frame bitCount obs

/-- `Decode(obs)` (41_decoder.md R110). -/
def decodeObs (obs : List Observation) : Option (List Byte × Nat) := decodeFrom 0 [0, 0, 0, 0, 0] 0 obs

end Sys2Proof.Machine
end

