-- ==== Sys2Proof/Machine/Sampler.lean ====
section
/-! DEFINITION. The Pulse Timing Sampler (40_sampler.md): `SAMPLE`, and the sampling pass as a function of the samples. -/

namespace Sys2Proof.Machine

/-- `SAMPLE`, same level (40_sampler.md R92), with the saturation abort when the incremented value is `SAT` (R94, EX2). -/
def sampleSame (s : State) : State :=
  let n := s.spinCount.toNat + 1
  let s' := { s with spinCount := writeSpin s.draws n }
  if n = Config.sat then { raise .sampleTimeout s' with phase := Phase.validate } else s'

/-- `SAMPLE`, transition (40_sampler.md R93), with the decoder's step applied to the emitted observation (41_decoder.md R117)
and the transition cap (R95). -/
def sampleTransition (s : State) : StepOutcome :=
  match decodeStep s.tIndex.toNat s.observation.duration s.frame s.bitCount with
  | .error r => .fault r
  | .ok (frame, bitCount) =>
    let t := s.tIndex.toNat + 1
    .next { s with
      frame := frame
      bitCount := bitCount
      spinCount := 0
      lastLevel := s.observation.level
      tIndex := writeTIndex s.draws t
      phase := if t = Config.maxTimings then Phase.validate else s.phase }

/-- `SAMPLE` (40_sampler.md R91): one sample, then the same-level or the transition case. -/
def execSample (s : State) : StepOutcome :=
  if s.lineRead = s.lastLevel then .next (sampleSame s) else sampleTransition s

/-- What a sampling pass returns (40_sampler.md R98). -/
structure PassResult where
  obs : List Observation
  aborted : Bool
  consumed : Nat
  deriving DecidableEq, Repr

/-- The loop of `SamplePass` (40_sampler.md R98); none where the samples end before the pass does. -/
def samplePassFrom (last : Level) (spin : Nat) (obs : List Observation) (k : Nat) : List Level → Option PassResult
  | [] => none
  | x :: xs =>
    if x = last then
      if spin + 1 = 255 then some ⟨obs, true, k + 1⟩ else samplePassFrom last (spin + 1) obs (k + 1) xs
    else
      let obs' := obs ++ [Observation.mk spin x]
      if obs'.length = Config.maxTimings then some ⟨obs', false, k + 1⟩ else samplePassFrom x 0 obs' (k + 1) xs

/-- `SamplePass(samples)` (40_sampler.md R98). -/
def samplePass (samples : List Level) : Option PassResult := samplePassFrom Level.high 0 [] 0 samples

end Sys2Proof.Machine
end

