-- ==== Sys2Proof/Machine/Validator.lean ====
section
/-! DEFINITION. The Frame Validator (42_validator.md) and `VALIDATE`. -/

namespace Sys2Proof.Machine

/-- The low 8 bits of the sum of the first four bytes as natural numbers (42_validator.md R126). -/
def checksum (f0 f1 f2 f3 : Byte) : Byte :=
  BitVec.ofNat 8 ((f0.toNat + f1.toNat + f2.toNat + f3.toNat) % 256)

/-- The 8-bit sum accumulator that discards the carry at each addition (42_validator.md R127). -/
def accumulate (f0 f1 f2 f3 : Byte) : Byte := f0 + f1 + f2 + f3

/-- `Valid(frame, bitCount)` (42_validator.md R126), for five bytes and any bit count. -/
def valid (f0 f1 f2 f3 f4 : Byte) (bitCount : Nat) : Bool :=
  decide (bitCount ≥ 40) && f4 == checksum f0 f1 f2 f3

/-- `short` of 42_validator.md R128. -/
def State.shortFrame (s : State) : Bool := decide (s.bitCount.toNat < Config.frameBits)

/-- `bad` of 42_validator.md R128. -/
def State.badChecksum (s : State) : Bool :=
  Memory.read s.frame 4 !=
    checksum (Memory.read s.frame 0) (Memory.read s.frame 1) (Memory.read s.frame 2) (Memory.read s.frame 3)

/-- `VALIDATE`: the verdict and its flags (42_validator.md R128), then in the same step the response (44_session.md R160). -/
def execValidate (s : State) : StepOutcome :=
  .next (respond (!s.shortFrame && !s.badChecksum) (writeVerdict s.shortFrame s.badChecksum s))

end Sys2Proof.Machine
end

