-- ==== Sys2Proof/Machine/Assembler.lean ====
section
/-! DEFINITION. The Reading Assembler (43_assembler.md): `ASSEMBLE` and the reading record. -/

namespace Sys2Proof.Machine

/-- `ASSEMBLE` (43_assembler.md R144). -/
def execAssemble (s : State) : StepOutcome :=
  .next { s with
    rdHumInt := Memory.read s.frame 0
    rdHumFrac := Memory.read s.frame 1
    rdTmpInt := Memory.read s.frame 2
    rdTmpFrac := Memory.read s.frame 3
    rdTs := s.timeIn
    rdValid := true
    phase := Phase.ready }

/-- `nd(F)` (43_assembler.md R137): the decimal digits of a byte without leading zeros. -/
def nd (f : Byte) : Nat :=
  if f.toNat ≤ 9 then 1 else if f.toNat ≤ 99 then 2 else 3

/-- `DecVal(I, F) = I + F / 10^nd(F)` (43_assembler.md R137). -/
def decVal (i f : Byte) : Rat := (i.toNat : Rat) + (f.toNat : Rat) / 10 ^ nd f

/-- A decimal digit, for `n` at most 9. -/
def digitChar (n : Nat) : Char := Char.ofNat ('0'.toNat + n)

/-- The shortest decimal numeral of a byte, "0" for zero (43_assembler.md R137). -/
def numeral (b : Byte) : List Char :=
  let n := b.toNat
  if n ≤ 9 then [digitChar n]
  else if n ≤ 99 then [digitChar (n / 10), digitChar (n % 10)]
  else [digitChar (n / 100), digitChar (n / 10 % 10), digitChar (n % 10)]

/-- `DecStr(I, F)` (43_assembler.md R137): the numeral of `I`, a point, the numeral of `F`. -/
def decStr (i f : Byte) : List Char := numeral i ++ '.' :: numeral f

/-- The value of a run of decimal digits on from `acc`; none at any other character. -/
def digitsValue (acc : Nat) : List Char → Option Nat
  | [] => some acc
  | c :: cs =>
    if '0'.toNat ≤ c.toNat ∧ c.toNat ≤ '9'.toNat then digitsValue (10 * acc + (c.toNat - '0'.toNat)) cs else none

/-- The value of a decimal literal "digits.digits": parse-as-decimal (43_assembler.md R137, R139). -/
def parseDecimal (cs : List Char) : Option Rat :=
  let whole := cs.takeWhile (· != '.')
  match cs.dropWhile (· != '.') with
  | _ :: frac =>
    if whole = [] ∨ frac = [] then none
    else
      match digitsValue 0 whole, digitsValue 0 frac with
      | some a, some b => some ((a : Rat) + (b : Rat) / 10 ^ frac.length)
      | _, _ => none
  | [] => none

/-- The type tags of a record's fields: the spec names one (30_encoding.md R71). -/
inductive TypeTag where
  | floatingPoint
  deriving DecidableEq, Repr

/-- A named field of the record: its type tag, its exact value and the consumer's image of it
(30_encoding.md R71, 43_assembler.md R141). -/
structure Field where
  name : String
  tag : TypeTag
  value : Rat
  image : Nat
  deriving DecidableEq

/-- The reading record (30_encoding.md R71, 43_assembler.md R140). -/
structure Reading where
  name : String
  fields : List Field
  timestamp : BitVec Config.tsWidth
  deriving DecidableEq

/-- A floating-point field from a pair of bytes (43_assembler.md R137, R141). -/
def fieldOf (name : String) (i f : Byte) : Field := ⟨name, .floatingPoint, decVal i f, Config.toFloat (decVal i f)⟩

/-- `Reading(rd_hum_int, rd_hum_frac, rd_tmp_int, rd_tmp_frac, rd_ts)` (43_assembler.md R140), Humidity first. -/
def State.reading (s : State) : Reading :=
  ⟨Config.sensorName, [fieldOf "Humidity" s.rdHumInt s.rdHumFrac, fieldOf "Temperature" s.rdTmpInt s.rdTmpFrac], s.rdTs⟩

/-- The 32-bit value of the record on the block's ports (30_encoding.md R71). -/
def State.recordO (s : State) : BitVec 32 := s.rdHumInt ++ s.rdHumFrac ++ s.rdTmpInt ++ s.rdTmpFrac

end Sys2Proof.Machine
end

