-- ==== Sys2Proof/Machine/Session.lean ====
section
/-! DEFINITION. The Sensor Session (44_session.md): the commands, the handshake, the idle phases, the reserved phase codes. -/

namespace Sys2Proof.Machine

/-! ## Commands (44_session.md R151). What is here is the command's own part of the step; the micro-operation of the phase
follows it (Sequencer.lean, log 4). -/

/-- `NOP` (44_session.md R152): no effect in any phase, never refused. -/
def execNop (s : State) : StepOutcome := .next s

/-- `RSV.1` (30_encoding.md R63): refused in every phase. -/
def execRsv1 (s : State) : StepOutcome := .next (refuseCommand s)

/-- `RSV.3` (30_encoding.md R63): refused in every phase. -/
def execRsv3 (s : State) : StepOutcome := .next (refuseCommand s)

/-- `RSV.7` (30_encoding.md R63): refused in every phase. -/
def execRsv7 (s : State) : StepOutcome := .next (refuseCommand s)

/-- `INIT` (44_session.md R153): accepted in `UNINIT` only; `READY`, or EX1 and `FATAL` when `init_ok = 0`. -/
def execInit (s : State) : StepOutcome :=
  if s.phase = Phase.uninit then
    .next (if s.initOk then { s with phase := Phase.ready } else raise .initFail s)
  else .next (refuseCommand s)

/-- `TAKE f` (44_session.md R154): accepted in `READY` only; latches `f` and starts an attempt. -/
def execTake (f : Bool) (s : State) : StepOutcome :=
  if s.phase = Phase.ready then .next (startAttempt { s with force := f }) else .next (refuseCommand s)

/-- `DESTROY` (44_session.md R155): accepted in `READY` only. -/
def execDestroy (s : State) : StepOutcome :=
  if s.phase = Phase.ready then .next { s with phase := Phase.closed, lineOe := false } else .next (refuseCommand s)

/-! ## Idle phases -/

/-- `IDLE.UNINIT` (44_session.md R164): no effect. -/
def execIdleUninit (s : State) : StepOutcome := .next s

/-- `IDLE.READY` (44_session.md R164): no effect. -/
def execIdleReady (s : State) : StepOutcome := .next s

/-- `IDLE.FATAL` (44_session.md R165): no effect. -/
def execIdleFatal (s : State) : StepOutcome := .next s

/-- `IDLE.CLOSED` (44_session.md R166): no effect. -/
def execIdleClosed (s : State) : StepOutcome := .next s

/-! ## The handshake -/

/-- `HS_LOW` (44_session.md R157). -/
def execHsLow (s : State) : StepOutcome :=
  let n := s.hsCount.toNat + 1
  if n = Config.hsLowTicks then .next { s with lineOut := Level.high, hsCount := 0, phase := Phase.hsHigh }
  else .next { s with hsCount := writeHs s.draws n }

/-- `HS_HIGH` (44_session.md R158). -/
def execHsHigh (s : State) : StepOutcome :=
  let n := s.hsCount.toNat + 1
  if n = Config.hsHighTicks then .next { s with lineOe := false, hsCount := 0, phase := Phase.sampling }
  else .next { s with hsCount := writeHs s.draws n }

/-! ## Reserved phase codes (30_encoding.md R65): the spec gives a step from one no meaning and asks for a fault. -/

/-- A step from a reserved phase code (30_encoding.md R65, 93_implementation_defined.md U5). -/
def reservedPhaseFault (code : PhaseCode) : StepOutcome := .fault (.reservedPhase code)

/-- `RSV.PHASE.9` (30_encoding.md R65). -/
def execRsvPhase9 (_s : State) : StepOutcome := reservedPhaseFault 9#4
/-- `RSV.PHASE.10` (30_encoding.md R65). -/
def execRsvPhase10 (_s : State) : StepOutcome := reservedPhaseFault 10#4
/-- `RSV.PHASE.11` (30_encoding.md R65). -/
def execRsvPhase11 (_s : State) : StepOutcome := reservedPhaseFault 11#4
/-- `RSV.PHASE.12` (30_encoding.md R65). -/
def execRsvPhase12 (_s : State) : StepOutcome := reservedPhaseFault 12#4
/-- `RSV.PHASE.13` (30_encoding.md R65). -/
def execRsvPhase13 (_s : State) : StepOutcome := reservedPhaseFault 13#4
/-- `RSV.PHASE.14` (30_encoding.md R65). -/
def execRsvPhase14 (_s : State) : StepOutcome := reservedPhaseFault 14#4
/-- `RSV.PHASE.15` (30_encoding.md R65). -/
def execRsvPhase15 (_s : State) : StepOutcome := reservedPhaseFault 15#4

end Sys2Proof.Machine
end

