-- ==== Sys2Proof/Machine/Dispatch.lean ====
section
/-! DEFINITION. One arm per operation of spec/opcode_table.json. -/

namespace Sys2Proof.Machine

def exec (i : Instr) (s : State) : Host.Outcome State Fault Refusal :=
  match i with
  -- commands
  | .nop => Sys2Proof.Machine.execNop s
  | .rsv1 => Sys2Proof.Machine.execRsv1 s
  | .init => Sys2Proof.Machine.execInit s
  | .rsv3 => Sys2Proof.Machine.execRsv3 s
  | .take f => Sys2Proof.Machine.execTake f s
  | .destroy => Sys2Proof.Machine.execDestroy s
  | .rsv7 => Sys2Proof.Machine.execRsv7 s
  -- micro-operations
  | .idleUninit => Sys2Proof.Machine.execIdleUninit s
  | .idleReady => Sys2Proof.Machine.execIdleReady s
  | .hsLow => Sys2Proof.Machine.execHsLow s
  | .hsHigh => Sys2Proof.Machine.execHsHigh s
  | .sample => Sys2Proof.Machine.execSample s
  | .validate => Sys2Proof.Machine.execValidate s
  | .assemble => Sys2Proof.Machine.execAssemble s
  | .idleFatal => Sys2Proof.Machine.execIdleFatal s
  | .idleClosed => Sys2Proof.Machine.execIdleClosed s
  | .rsvPhase9 => Sys2Proof.Machine.execRsvPhase9 s
  | .rsvPhase10 => Sys2Proof.Machine.execRsvPhase10 s
  | .rsvPhase11 => Sys2Proof.Machine.execRsvPhase11 s
  | .rsvPhase12 => Sys2Proof.Machine.execRsvPhase12 s
  | .rsvPhase13 => Sys2Proof.Machine.execRsvPhase13 s
  | .rsvPhase14 => Sys2Proof.Machine.execRsvPhase14 s
  | .rsvPhase15 => Sys2Proof.Machine.execRsvPhase15 s

end Sys2Proof.Machine
end

