-- ==== Sys2Proof/Machine/Sequencer.lean ====
section
/-! DEFINITION. What one step does (44_session.md R168), and where the next step fetches its operations. -/

namespace Sys2Proof.Machine

/-- The operations of a step that is no reset: the command handling, then the micro-operation that the start-of-step phase
selects (30_encoding.md R64, 44_session.md R151, R168). An accepted command meets an idle micro-operation only (R151, log 4). -/
def runOperations (s : State) : StepOutcome :=
  andThen (exec (decodeCmd s.command) s.clearPulses) (exec (decodePhase s.phase))

/-- One step: reset wins; otherwise the pulses are cleared and the operations run. -/
def runStep (s : State) : StepOutcome :=
  if s.port.rst then .next s.applyReset.advance
  else andThen (runOperations s) (fun t => .next t.advance)

/-- A table word stored where the next step fetches it: a command on the command port, a phase code in `phase` (log 1, log 3).
A word of no row changes nothing. -/
def placeWord (s : State) (nbits w : Nat) : State :=
  match tableFormat nbits w with
  | some .cmd => s.placeCmd (BitVec.ofNat 3 w)
  | some .phase => s.placePhase (BitVec.ofNat 4 w)
  | none => s

end Sys2Proof.Machine
end

