-- ==== Sys2Proof/Machine/Step.lean ====
section
/-! DEFINITION. The whole-step function (44_session.md R168) and where a step fetches its operations. -/

namespace Sys2Proof.Machine

/-- One step (44_session.md R168). -/
def step (s : State) : Host.Outcome State Fault Refusal := runStep s

/-- Store a table word where the next step fetches it (log 1, log 3). -/
def State.withFetchWord (s : State) (nbits w : Nat) : State := placeWord s nbits w

end Sys2Proof.Machine
end

