-- ==== Sys2Proof/Safety.lean ====
section
/-! DEFINITION. Runs, what the rules keep in every reachable state (10_state.md R30, R31), and the invariant that a step keeps from
every state that has it. -/

namespace Sys2Proof.Machine

/-- A run of `k` steps, stopping at the first fault or refusal (70_reset_and_hazards.md R210, 20_memory.md R46): the host's
`Host.Core.run` of the machine, written over `andThen`. -/
def steps : Nat → State → StepOutcome
  | 0, s => .next s
  | k + 1, s => andThen (step s) (steps k)

/-- The statement of 10_state.md R30 about one state. -/
structure State.R30 (s : State) : Prop where
  phaseNamed : s.phase.toNat ≤ 8
  spinLe : s.spinCount.toNat ≤ 255
  tIndexLe : s.tIndex.toNat ≤ Config.maxTimings
  hsLt : s.hsCount.toNat < Config.hsLowTicks
  levelParity : s.lastLevel = Level.high ↔ s.tIndex.toNat % 2 = 0
  oeHandshake : s.lineOe = true ↔ s.phase = Phase.hsLow ∨ s.phase = Phase.hsHigh
  outLow : s.lineOe = true → (s.lineOut = Level.low ↔ s.phase = Phase.hsLow)
  abortSat : s.stAbort = true → s.spinCount.toNat = 255

/-- The statement of 10_state.md R31 about one state. -/
structure State.R31 (s : State) : Prop where
  countEarly : s.tIndex.toNat < 4 → s.bitCount.toNat = 0
  countLate : 4 ≤ s.tIndex.toNat → s.bitCount.toNat = (s.tIndex.toNat - 3) >>> 1
  countLe : s.bitCount.toNat ≤ 40
  countFull : s.bitCount.toNat = 40 ↔ s.tIndex.toNat = 83
  bytesAbove : ∀ k, s.bitCount.toNat >>> 3 < k → Memory.read s.frame k = 0
  bytePartial : s.bitCount.toNat < 40 →
    (Memory.read s.frame (s.bitCount.toNat >>> 3)).toNat < 1 <<< (s.bitCount.toNat &&& 7)

/-- What the phases add (40_sampler.md R90, R94, R95; 44_session.md R156 to R158), without which R30 and R31 are not kept step by
step: the attempt start's values last through the handshake, a pass in progress has room for one more sample, and a pass that is
over has ended in one of its two ways. DEDUCED from those rules, see log 20. -/
structure State.PhaseInv (s : State) : Prop where
  frameCanonical : Memory.wf s.frame
  handshakeClear : s.phase = Phase.hsLow ∨ s.phase = Phase.hsHigh →
    s.tIndex = 0 ∧ s.spinCount = 0 ∧ s.frame = [] ∧ s.stAbort = false
  highHold : s.phase = Phase.hsHigh → s.hsCount.toNat < Config.hsHighTicks
  passOpen : s.phase = Phase.sampling →
    s.spinCount.toNat < Config.sat ∧ s.tIndex.toNat < Config.maxTimings ∧ s.stAbort = false
  passOver : s.phase = Phase.validate → (s.stAbort = true ↔ s.tIndex.toNat < Config.maxTimings)

/-- The invariant of the block. -/
structure State.Inv (s : State) : Prop where
  r30 : s.R30
  r31 : s.R31
  phases : s.PhaseInv

/-- A safe outcome of a step: the machine goes on, in a state that has the invariant. -/
def SafeOutcome (o : StepOutcome) : Prop := ∃ t, o = .next t ∧ t.Inv

end Sys2Proof.Machine
end

