-- ==== Sys2Proof/Certificates/Slice0/Obligations.lean ====
section
/-! DEFINITION. The statements for the provers. `steps k s` is `k` steps from `s`; `s.portAt i` are the
input ports of the step `i` steps from now. -/

open Sys2Proof Sys2Proof.Machine

/-! ## Encodings -/

/-- 30_encoding.md sections 1 and 3: decoding the bytes of any operation gives the operation back and leaves the rest. -/
def Obligations.DecodeOfEncodeIsTheOperation : Prop :=
  ∀ (i : Instr) (rest : List Byte), i.wellFormed = true → decode i.format (encode i ++ rest) = .ok (i, rest)

/-- 30_encoding.md R72 and sections 1 and 3: every decoded byte is the encoding of what it decodes to, and a byte is refused
exactly when a bit above the encoding's width is set. -/
def Obligations.EveryWordHasOneMeaning : Prop :=
  ∀ (fmt : Format) (b : Byte) (bs : List Byte),
    (∀ i rest, decode fmt (b :: bs) = .ok (i, rest) → encode i = [b] ∧ i.format = fmt ∧ rest = bs) ∧
    (decode fmt (b :: bs) = .error .tooWide ↔ 2 ^ fmt.width ≤ b.toNat) ∧
    decode fmt [] = .error .noByte

/-- 30_encoding.md R61: the command map; `cmd_valid = 0` is `NOP` whatever `cmd` holds. -/
def Obligations.CommandMapIsComplete : Prop :=
  decodeCmd 0b000#3 = .nop ∧ decodeCmd 0b001#3 = .rsv1 ∧ decodeCmd 0b010#3 = .init ∧ decodeCmd 0b011#3 = .rsv3 ∧
  decodeCmd 0b100#3 = .take false ∧ decodeCmd 0b101#3 = .take true ∧ decodeCmd 0b110#3 = .destroy ∧
  decodeCmd 0b111#3 = .rsv7 ∧
  (∀ s : State, s.port.cmdValid = true → s.command = s.port.cmd) ∧
  (∀ s : State, s.port.cmdValid = false → decodeCmd s.command = .nop)

/-- 30_encoding.md R64: the phase map, and that a step executes the micro-operation of its start-of-step phase after the
command handling. -/
def Obligations.PhaseSelectsTheMicroOperation : Prop :=
  decodePhase 0b0000#4 = .idleUninit ∧ decodePhase 0b0001#4 = .idleReady ∧ decodePhase 0b0010#4 = .hsLow ∧
  decodePhase 0b0011#4 = .hsHigh ∧ decodePhase 0b0100#4 = .sample ∧ decodePhase 0b0101#4 = .validate ∧
  decodePhase 0b0110#4 = .assemble ∧ decodePhase 0b0111#4 = .idleFatal ∧ decodePhase 0b1000#4 = .idleClosed ∧
  (∀ s t : State, s.port.rst = false → exec (decodeCmd s.command) s.clearPulses = .next t →
    step s = andThen (exec (decodePhase s.phase) t) (fun u => .next u.advance))

/-! ## The step -/

/-- 44_session.md section 7: a step that is no reset clears the pulses and runs the operation that the command word decodes to,
then the one that the start-of-step phase code decodes to; the ports of the step have then been read (the model's own fields,
log 2 and log 4). -/
def Obligations.StepRunsTheDecodedOperations : Prop :=
  ∀ (s : State) (c p : Instr), s.port.rst = false →
    decode .cmd [s.command.setWidth 8] = .ok (c, []) → decode .phase [s.phase.setWidth 8] = .ok (p, []) →
    step s = andThen (exec c { s with rdValid := false, cmdReject := false })
      (fun t => andThen (exec p t) (fun u => .next { u with inputs := u.inputs.tail, draws := u.draws + 1 }))

/-- The model's own convention (log 1, log 3): a table word stored by `withFetchWord` is what the very next step runs, as its
command or as its micro-operation. -/
def Obligations.FetchWordIsRunByTheNextStep : Prop :=
  ∀ (s : State) (nbits w : Nat) (i : Instr), decodeTableWord nbits w = some i →
    (i.format = .cmd → step (s.withFetchWord nbits w) =
      andThen (exec i (s.withFetchWord nbits w).clearPulses)
        (fun t => andThen (exec (decodePhase s.phase) t) (fun u => .next u.advance))) ∧
    (i.format = .phase → step (s.withFetchWord nbits w) =
      andThen (exec i (s.withFetchWord nbits w).clearPulses) (fun u => .next u.advance))

/-- 44_session.md R168 and R151: the whole step. Reset wins; an accepted command is executed and nothing else; a refused one
pulses `cmd_reject` and the micro-operation of the phase runs in the same step. -/
def Obligations.WholeStepFunction : Prop :=
  ∀ s : State,
    (s.port.rst = true → step s = .next { State.reset with inputs := s.inputs.tail, draws := s.draws + 1 }) ∧
    (s.port.rst = false →
      (s.command = 0b010#3 → s.phase = Phase.uninit →
        step s = andThen (exec .init s.clearPulses) (fun t => .next t.advance)) ∧
      (∀ f : Bool, s.command = 0b10#2 ++ BitVec.ofBool f → s.phase = Phase.ready →
        step s = andThen (exec (.take f) s.clearPulses) (fun t => .next t.advance)) ∧
      (s.command = 0b110#3 → s.phase = Phase.ready →
        step s = andThen (exec .destroy s.clearPulses) (fun t => .next t.advance)) ∧
      (¬ (s.command = 0b010#3 ∧ s.phase = Phase.uninit) →
        ¬ ((s.command = 0b100#3 ∨ s.command = 0b101#3 ∨ s.command = 0b110#3) ∧ s.phase = Phase.ready) →
        step s = andThen
          (exec (decodePhase s.phase) { s with rdValid := false, cmdReject := decide (s.command ≠ 0b000#3) })
          (fun t => .next t.advance)))

/-! ## Reset -/

/-- 10_state.md R29: the reset value of every register. -/
def Obligations.ResetValues : Prop :=
  (∀ k, Memory.read State.reset.frame k = 0) ∧
  State.reset.phase = Phase.uninit ∧ State.reset.force = false ∧ State.reset.hsCount = 0 ∧ State.reset.tIndex = 0 ∧
  State.reset.spinCount = 0 ∧ State.reset.bitCount = 0 ∧ State.reset.lastLevel = Level.high ∧
  State.reset.stFresh = false ∧ State.reset.stShort = false ∧ State.reset.stCsum = false ∧ State.reset.stAbort = false ∧
  State.reset.lineOe = false ∧ State.reset.lineOut = Level.high ∧
  State.reset.rdHumInt = 0 ∧ State.reset.rdHumFrac = 0 ∧ State.reset.rdTmpInt = 0 ∧ State.reset.rdTmpFrac = 0 ∧
  State.reset.rdTs = 0 ∧ State.reset.rdValid = false ∧ State.reset.cmdReject = false

/-- 70_reset_and_hazards.md R200: in a step with `rst = 1` every register takes its reset value, whatever the state and the
command, and afterwards only the inputs still to come tell the state from `State.reset`; no other step leaves `FATAL` or `CLOSED`,
or a busy phase other than `ASSEMBLE` for an idle one. -/
def Obligations.ResetStepWritesEveryRegister : Prop :=
  (∀ s : State, s.port.rst = true →
    ∃ t, step s = .next t ∧ t = { State.reset with inputs := t.inputs, draws := t.draws } ∧
      t.cmdReject = false ∧ t.rdValid = false ∧ t.lineOe = false ∧ t.phase = Phase.uninit) ∧
  (∀ s t : State, s.port.rst = false → step s = .next t →
    (s.phase = Phase.fatal ∨ s.phase = Phase.closed → t.phase = s.phase) ∧
    (busy s.phase = true → s.phase ≠ Phase.assemble → busy t.phase = true))

/-! ## Commands -/

/-- 44_session.md R152: `NOP` has no effect in any phase and is never refused; the phase's micro-operation runs. -/
def Obligations.NopHasNoEffect : Prop :=
  (∀ s : State, exec .nop s = .next s) ∧
  (∀ s : State, s.port.rst = false → s.port.cmdValid = false ∨ s.port.cmd = 0b000#3 →
    step s = andThen (exec (decodePhase s.phase) { s with rdValid := false, cmdReject := false }) (fun t => .next t.advance))

/-- 30_encoding.md R63: a reserved command word, in any phase, writes `cmd_reject` and nothing else. -/
def Obligations.ReservedCommandsAreRefused : Prop :=
  ∀ s : State,
    exec (decodeCmd 0b001#3) s = .next { s with cmdReject := true } ∧
    exec (decodeCmd 0b011#3) s = .next { s with cmdReject := true } ∧
    exec (decodeCmd 0b111#3) s = .next { s with cmdReject := true } ∧
    exec .rsv1 s = .next { s with cmdReject := true } ∧
    exec .rsv3 s = .next { s with cmdReject := true } ∧
    exec .rsv7 s = .next { s with cmdReject := true }

/-- 44_session.md R153: `INIT` is accepted in `UNINIT` only and writes `phase` alone, by the level of `init_ok`. -/
def Obligations.InitLeavesUninit : Prop :=
  ∀ s : State,
    (s.phase = Phase.uninit → s.port.initOk = true → exec .init s = .next { s with phase := Phase.ready }) ∧
    (s.phase = Phase.uninit → s.port.initOk = false → exec .init s = .next { s with phase := Phase.fatal }) ∧
    (s.phase ≠ Phase.uninit → exec .init s = .next { s with cmdReject := true })

/-- 44_session.md section 2: `TAKE f` is accepted in `READY` only; it latches `f` and starts an attempt. Elsewhere it is refused. -/
def Obligations.TakeStartsAnAttempt : Prop :=
  ∀ (s : State) (f : Bool),
    (s.phase = Phase.ready → exec (.take f) s = .next { s with
      force := f, frame := [], bitCount := 0, spinCount := 0, tIndex := 0, lastLevel := Level.high, stAbort := false,
      hsCount := 0, lineOe := true, lineOut := Level.low, phase := Phase.hsLow }) ∧
    (s.phase ≠ Phase.ready → exec (.take f) s = .next { s with cmdReject := true })

/-- 44_session.md R155: `DESTROY` is accepted in `READY` only; every other register keeps its value. -/
def Obligations.DestroyClosesTheSession : Prop :=
  ∀ s : State,
    (s.phase = Phase.ready → exec .destroy s = .next { s with phase := Phase.closed, lineOe := false }) ∧
    (s.phase ≠ Phase.ready → exec .destroy s = .next { s with cmdReject := true })

/-- 44_session.md section 5: the micro-operations of the idle phases have no effect. -/
def Obligations.IdleMicroOperationsHaveNoEffect : Prop :=
  ∀ s : State, exec .idleUninit s = .next s ∧ exec .idleReady s = .next s ∧ exec .idleFatal s = .next s ∧
    exec .idleClosed s = .next s

/-- 44_session.md R165 and R166 with 60_exceptions.md R181: from `FATAL` or `CLOSED`, for as long as no reset comes, every step
leaves every register but the pulses, no reading is produced and the line is not driven. -/
def Obligations.FatalAndClosedAreTerminal : Prop :=
  ∀ (k : Nat) (s : State), s.Inv → s.phase = Phase.fatal ∨ s.phase = Phase.closed →
    (∀ i < k, (s.portAt i).rst = false) →
    ∃ t, steps k s = .next t ∧ t.lineOe = false ∧
      t = { s with rdValid := t.rdValid, cmdReject := t.cmdReject, inputs := t.inputs, draws := t.draws } ∧
      (0 < k → t.rdValid = false ∧
        (t.cmdReject = true ↔ (s.portAt (k - 1)).cmdValid = true ∧ (s.portAt (k - 1)).cmd ≠ 0b000#3))

/-! ## The handshake -/

/-- 44_session.md section 3, `HS_LOW`: one more step of the low hold, or, from `hsCount = 17999`, the line driven high and
`HS_HIGH`. -/
def Obligations.HsLowHoldsTheLineLow : Prop :=
  ∀ s : State,
    (s.hsCount = 17999 →
      exec .hsLow s = .next { s with lineOut := Level.high, hsCount := 0, phase := Phase.hsHigh }) ∧
    (s.hsCount ≠ 17999 → s.hsCount.toNat < 32767 → exec .hsLow s = .next { s with hsCount := s.hsCount + 1 })

/-- 44_session.md section 3, `HS_HIGH`: one more step of the high hold, or, from `hsCount = 39`, the line released and
`SAMPLING`. -/
def Obligations.HsHighReleasesTheLine : Prop :=
  ∀ s : State,
    (s.hsCount = 39 →
      exec .hsHigh s = .next { s with lineOe := false, hsCount := 0, phase := Phase.sampling }) ∧
    (s.hsCount ≠ 39 → s.hsCount.toNat < 32767 → exec .hsHigh s = .next { s with hsCount := s.hsCount + 1 })

/-- 30_encoding.md R66, 44_session.md R157 and R158: from an attempt start the line is driven low in exactly 18000 steps and
then high in exactly 40, and is then released for the first sample. -/
def Obligations.HandshakeWaveform : Prop :=
  ∀ (s : State) (k : Nat), s.phase = Phase.hsLow → s.hsCount = 0 → s.lineOe = true → s.lineOut = Level.low →
    k ≤ 18040 → (∀ i < k, (s.portAt i).rst = false) →
    ∃ t, steps k s = .next t ∧
      (k < 18000 → t.phase = Phase.hsLow ∧ t.hsCount.toNat = k ∧ t.lineOe = true ∧ t.lineOut = Level.low) ∧
      (18000 ≤ k → k < 18040 →
        t.phase = Phase.hsHigh ∧ t.hsCount.toNat = k - 18000 ∧ t.lineOe = true ∧ t.lineOut = Level.high) ∧
      (k = 18040 → t.phase = Phase.sampling ∧ t.hsCount = 0 ∧ t.lineOe = false) ∧
      t.lastLevel = s.lastLevel ∧ t.spinCount = s.spinCount ∧ t.tIndex = s.tIndex ∧ t.bitCount = s.bitCount ∧
      t.frame = s.frame

/-! ## The sampler and the decoder -/

/-- 40_sampler.md R92: a sample equal to `lastLevel` increments `spinCount` and changes nothing else, unless the new value is
`SAT`, where the pass also aborts. -/
def Obligations.SampleSameLevelCounts : Prop :=
  ∀ s : State, s.port.lineIn = s.lastLevel →
    (s.spinCount.toNat < 254 → exec .sample s = .next { s with spinCount := s.spinCount + 1 }) ∧
    (s.spinCount.toNat = 254 →
      exec .sample s = .next { s with spinCount := 255, stAbort := true, phase := Phase.validate })

/-- 40_sampler.md R94: the saturation abort, and that it always leaves an invalid attempt with fewer than 40 bits. -/
def Obligations.SaturationAbortsThePass : Prop :=
  ∀ s : State, s.Inv → s.phase = Phase.sampling → s.port.lineIn = s.lastLevel → s.spinCount.toNat + 1 = 255 →
    ∃ t, exec .sample s = .next t ∧
      t = { s with spinCount := 255, stAbort := true, phase := Phase.validate } ∧
      t.bitCount.toNat < 40 ∧ t.tIndex.toNat ≤ 82 ∧
      ∀ f0 f1 f2 f3 f4, t.frameBytes = [f0, f1, f2, f3, f4] → valid f0 f1 f2 f3 f4 t.bitCount.toNat = false

/-- 40_sampler.md R93 with 41_decoder.md R114: a sample that differs from `lastLevel`, in every state of which the rules say
where the bit goes. The observation's duration is `spinCount`; at an even index from 4 on its bit is appended to the byte
`bitCount >> 3`, and no other byte changes. -/
def Obligations.SampleTransitionDecodes : Prop :=
  ∀ s : State, s.port.lineIn ≠ s.lastLevel → s.tIndex.toNat < 127 → Memory.wf s.frame →
    (¬ (4 ≤ s.tIndex.toNat ∧ s.tIndex.toNat % 2 = 0) →
      exec .sample s = .next { s with
        spinCount := 0, lastLevel := s.port.lineIn, tIndex := s.tIndex + 1,
        phase := if s.tIndex = 82 then Phase.validate else s.phase }) ∧
    (4 ≤ s.tIndex.toNat → s.tIndex.toNat % 2 = 0 → s.bitCount.toNat < 40 →
      ∃ m, exec .sample s = .next { s with
          frame := m, bitCount := s.bitCount + 1,
          spinCount := 0, lastLevel := s.port.lineIn, tIndex := s.tIndex + 1,
          phase := if s.tIndex = 82 then Phase.validate else s.phase } ∧
        Memory.wf m ∧
        ∀ a, (Memory.read m a).toNat =
          if a = s.bitCount.toNat >>> 3 then
            (2 * (Memory.read s.frame a).toNat + (if 30 < s.spinCount.toNat then 1 else 0)) % 256
          else (Memory.read s.frame a).toNat)

/-- The model's own choice (log 9, DEDUCED): `SAMPLE` stops, by the fault `frameAddress`, exactly when a classified transition
would append at a frame address above 4. 20_memory.md section 3 gives such an access no meaning and asks for no fault; that
`SAMPLE` goes on everywhere else is the rules'. -/
def Obligations.SampleFaultsOnlyBeyondTheFrame : Prop :=
  ∀ s : State,
    (s.port.lineIn ≠ s.lastLevel ∧ 4 ≤ s.tIndex.toNat ∧ s.tIndex.toNat % 2 = 0 ∧ 40 ≤ s.bitCount.toNat →
      exec .sample s = .fault (.frameAddress (s.bitCount.toNat >>> 3))) ∧
    (¬ (s.port.lineIn ≠ s.lastLevel ∧ 4 ≤ s.tIndex.toNat ∧ s.tIndex.toNat % 2 = 0 ∧ 40 ≤ s.bitCount.toNat) →
      ∃ t, exec .sample s = .next t)

/-- 40_sampler.md section 1, last sentence of its rule: what `SAMPLE` leaves unchanged, the frame's bytes by their addresses. -/
def Obligations.SampleFrameCondition : Prop :=
  ∀ s t : State, exec .sample s = .next t →
    (∀ a, ¬ (s.port.lineIn ≠ s.lastLevel ∧ 4 ≤ s.tIndex.toNat ∧ s.tIndex.toNat % 2 = 0 ∧ a = s.bitCount.toNat >>> 3) →
      Memory.read t.frame a = Memory.read s.frame a) ∧
    (s.port.lineIn = s.lastLevel → t.lastLevel = s.lastLevel ∧ t.tIndex = s.tIndex ∧ t.bitCount = s.bitCount) ∧
    (s.port.lineIn ≠ s.lastLevel → t.stAbort = s.stAbort) ∧
    t = { s with
      frame := t.frame, bitCount := t.bitCount, spinCount := t.spinCount, lastLevel := t.lastLevel, tIndex := t.tIndex,
      stAbort := t.stAbort, phase := t.phase }

/-- The model's own convention (log 8), no rule of the spec: a counter incremented past its register's width, in states that no
run reaches, holds a free value, and everything else is as the operation says. -/
def Obligations.CounterOverflowLeavesAFreeValue : Prop :=
  ∀ s : State,
    (s.port.lineIn = s.lastLevel → s.spinCount = 255 →
      exec .sample s = .next { s with spinCount := Config.freeSpinCount s.draws }) ∧
    (s.port.lineIn ≠ s.lastLevel → s.tIndex = 127 →
      exec .sample s = .next { s with
        spinCount := 0, lastLevel := s.port.lineIn, tIndex := Config.freeTIndex s.draws }) ∧
    (s.hsCount = 32767 →
      exec .hsLow s = .next { s with hsCount := Config.freeHsCount s.draws } ∧
      exec .hsHigh s = .next { s with hsCount := Config.freeHsCount s.draws })

/-- 40_sampler.md R97, with 30_encoding.md section 5: the levels of successive observations alternate, starting with low; an
emitted duration is 0 to 254; a pass that is not aborted has 83 observations and an aborted one fewer. -/
def Obligations.ObservationsAlternate : Prop :=
  ∀ (samples : List Level) (r : PassResult), samplePass samples = some r →
    (∀ (i : Nat) (o : Observation), r.obs[i]? = some o →
      (i % 2 = 0 → o.level = Level.low) ∧ (i % 2 = 1 → o.level = Level.high) ∧ o.duration ≤ 254) ∧
    (r.aborted = false → r.obs.length = 83) ∧ (r.aborted = true → r.obs.length ≤ 82) ∧ r.consumed ≤ samples.length

/-- 40_sampler.md R99: every pass ends within 21165 samples; the bounds 83 and 255 are those of the two ways to end, and both are
met. -/
def Obligations.EveryPassTerminates : Prop :=
  (∀ samples : List Level, 21165 ≤ samples.length →
    ∃ r, samplePass samples = some r ∧ r.consumed ≤ 21165 ∧ (r.aborted = false → 83 ≤ r.consumed) ∧
      (r.aborted = true → 255 ≤ r.consumed)) ∧
  (∃ samples r, samplePass samples = some r ∧ r.aborted = false ∧ r.consumed = 83) ∧
  (∃ samples r, samplePass samples = some r ∧ r.aborted = true ∧ r.consumed = 255)

/-- 40_sampler.md R96: what a duration measures. A first interval of `n` high samples is measured as `n`, a first low sample
gives duration 0, and any later interval seen in `n` samples, the first of which detected the transition before it, as `n - 1`;
so a high half seen in 31 samples is bit 0 and one seen in 32 is bit 1. -/
def Obligations.DurationCountsSamples : Prop :=
  (∀ (n : Nat) (rest : List Level), 1 ≤ n → n ≤ 254 →
    samplePass (List.replicate n Level.high ++ Level.low :: rest) =
      samplePassFrom Level.low 0 [⟨n, Level.low⟩] (n + 1) rest) ∧
  (∀ rest : List Level, samplePass (Level.low :: rest) = samplePassFrom Level.low 0 [⟨0, Level.low⟩] 1 rest) ∧
  (∀ (x : Level) (spin : Nat) (obs : List Observation) (k n : Nat) (rest : List Level), 1 ≤ n → n ≤ 255 → obs.length ≤ 81 →
    samplePassFrom (!x) spin obs k (List.replicate n x ++ (!x) :: rest) =
      if obs.length = 81 then some ⟨obs ++ [⟨spin, x⟩, ⟨n - 1, !x⟩], false, k + n + 1⟩
      else samplePassFrom (!x) 0 (obs ++ [⟨spin, x⟩, ⟨n - 1, !x⟩]) (k + n + 1) rest) ∧
  classify (31 - 1) = false ∧ classify (32 - 1) = true

/-- 41_decoder.md R112, and the selection of its section 2: four observations or fewer decode to no bit; the frame and the bit
count depend on the durations at the even indices from 4 on alone, and on how many observations there are. -/
def Obligations.OnlyClassifiedDurationsMatter : Prop :=
  (∀ obs : List Observation, obs.length ≤ 4 → decodeObs obs = some ([0, 0, 0, 0, 0], 0)) ∧
  (∀ xs ys : List Observation, xs.length = ys.length →
    (∀ i, 4 ≤ i → i % 2 = 0 → xs[i]?.map (·.duration) = ys[i]?.map (·.duration)) →
    decodeObs xs = decodeObs ys)

/-- 41_decoder.md section 5: of at most 83 observations at most 40 bits are decoded, 40 exactly of 83, and no byte beyond
`frame[4]` is addressed; of 85 or more `Decode` has no meaning. -/
def Obligations.AtMostFortyBitsAreDecoded : Prop :=
  (∀ obs : List Observation, obs.length ≤ 84 →
    ∃ bytes n, decodeObs obs = some (bytes, n) ∧ bytes.length = 5 ∧ n = (obs.length - 3) / 2 ∧ n ≤ 40) ∧
  (∀ obs : List Observation, 85 ≤ obs.length → decodeObs obs = none)

/-- 20_memory.md section 2 and 30_encoding.md section 4: of a full pass the `k`-th bit, most significant first, is whether the
duration at index `4 + 2k` exceeds 30. -/
def Obligations.FrameBitsAreThresholdedDurations : Prop :=
  ∀ obs : List Observation, obs.length = 83 →
    ∃ bytes, decodeObs obs = some (bytes, 40) ∧ bytes.length = 5 ∧
      ∀ k, k < 40 → ∀ o byte, obs[4 + 2 * k]? = some o → bytes[k / 8]? = some byte →
        byte.getLsbD (7 - k % 8) = decide (30 < o.duration)

/-- 30_encoding.md R74: a byte assembled from at most eight bits, first received first, holds them right-aligned with the last
received as bit 0 and its upper bits 0. -/
def Obligations.AppendedBitsStandRightAligned : Prop :=
  ∀ (bits : List Bool) (j : Nat), bits.length ≤ 8 →
    (bits.foldl shiftIn 0).getLsbD j = bits.reverse.getD j false

/-- 41_decoder.md R117: the decoder's step, applied to the observations of a pass in order from the all-zero frame and
`bitCount = 0`, yields `Decode` of the list; the block applies that step to `tIndex` and `spinCount` at a transition. -/
def Obligations.StreamedDecoderIsDecode : Prop :=
  (∀ (s : State) (m : Memory) (bc : BitVec 6), s.port.lineIn ≠ s.lastLevel →
    decodeStep s.tIndex.toNat s.spinCount.toNat s.frame s.bitCount = .ok (m, bc) →
    ∃ t, exec .sample s = .next t ∧ t.frame = m ∧ t.bitCount = bc) ∧
  ∀ obs : List Observation, obs.length ≤ 84 →
    ∃ m bc bytes n,
      obs.zipIdx.foldlM (fun p oi => decodeStep oi.2 oi.1.duration p.1 p.2) (([] : Memory), (0 : BitVec 6)) = .ok (m, bc) ∧
      decodeObs obs = some (bytes, n) ∧ bc.toNat = n ∧ Memory.wf m ∧
      bytes = [Memory.read m 0, Memory.read m 1, Memory.read m 2, Memory.read m 3, Memory.read m 4]

/-- 40_sampler.md R98 with R90: from the first step of a pass the block computes `SamplePass` of the samples on the line and
`Decode` of its observations, in as many steps, staying in `SAMPLING` until the last, whatever the host presents. -/
def Obligations.BlockPassIsSamplePass : Prop :=
  ∀ (s : State) (r : PassResult),
    s.phase = Phase.sampling → s.lastLevel = Level.high → s.spinCount = 0 → s.tIndex = 0 → s.bitCount = 0 → s.frame = [] →
    s.stAbort = false → (∀ p ∈ s.inputs, p.rst = false) → samplePass (s.inputs.map (·.lineIn)) = some r →
    (∀ j < r.consumed, ∃ u, steps j s = .next u ∧ u.phase = Phase.sampling) ∧
    ∃ t bytes n, steps r.consumed s = .next t ∧ t.phase = Phase.validate ∧
      t.tIndex.toNat = r.obs.length ∧ t.stAbort = r.aborted ∧
      decodeObs r.obs = some (bytes, n) ∧ t.frameBytes = bytes ∧ t.bitCount.toNat = n ∧
      t = { s with
        frame := t.frame, bitCount := t.bitCount, tIndex := t.tIndex, lastLevel := t.lastLevel, spinCount := t.spinCount,
        stAbort := t.stAbort, phase := t.phase, rdValid := false, cmdReject := t.cmdReject,
        inputs := s.inputs.drop r.consumed, draws := s.draws + r.consumed }

/-! ## The validator -/

/-- 42_validator.md R126: the verdict as a function of five bytes and a bit count. -/
def Obligations.ValidIffFortyBitsAndChecksum : Prop :=
  ∀ (f0 f1 f2 f3 f4 : Byte) (bitCount : Nat),
    valid f0 f1 f2 f3 f4 bitCount = true ↔
      40 ≤ bitCount ∧ f4.toNat = (f0.toNat + f1.toNat + f2.toNat + f3.toNat) % 256

/-- 42_validator.md R127: the 8-bit accumulator that drops the carry at each addition computes the checksum. -/
def Obligations.AccumulatorIsTheChecksum : Prop :=
  ∀ f0 f1 f2 f3 : Byte,
    accumulate f0 f1 f2 f3 = checksum f0 f1 f2 f3 ∧
    (accumulate f0 f1 f2 f3).toNat = (((f0.toNat + f1.toNat) % 256 + f2.toNat) % 256 + f3.toNat) % 256

/-- 42_validator.md R128 and 44_session.md R160: `VALIDATE` writes the three flags of the verdict and in the same step goes on to
`ASSEMBLE` or, for an invalid attempt of a forced `TAKE`, starts a new attempt. -/
def Obligations.ValidateJudgesAndBranches : Prop :=
  ∀ (s : State) (f0 f1 f2 f3 f4 : Byte) (short bad : Bool), s.frameBytes = [f0, f1, f2, f3, f4] →
    short = decide (s.bitCount.toNat < 40) →
    bad = decide (f4.toNat ≠ (f0.toNat + f1.toNat + f2.toNat + f3.toNat) % 256) →
    ((short = false ∧ bad = false) ∨ s.force = false →
      exec .validate s = .next { s with
        stShort := short, stCsum := bad, stFresh := !short && !bad, phase := Phase.assemble }) ∧
    ((short = true ∨ bad = true) → s.force = true →
      exec .validate s = .next { s with
        stShort := short, stCsum := bad, stFresh := false,
        frame := [], bitCount := 0, spinCount := 0, tIndex := 0, lastLevel := Level.high, stAbort := false,
        hsCount := 0, lineOe := true, lineOut := Level.low, phase := Phase.hsLow })

/-- 10_state.md R18: which step writes which flag, and what; and that the flags' values make no difference to any other
register. -/
def Obligations.FlagWrites : Prop :=
  (∀ (s t : State) (a b c d : Bool), step s = .next t →
    ∃ u, step { s with stFresh := a, stShort := b, stCsum := c, stAbort := d } = .next u ∧
      u = { t with stFresh := u.stFresh, stShort := u.stShort, stCsum := u.stCsum, stAbort := u.stAbort }) ∧
  ∀ s t : State, s.port.rst = false → step s = .next t →
    (s.phase = Phase.validate →
      ∀ f0 f1 f2 f3 f4 : Byte, s.frameBytes = [f0, f1, f2, f3, f4] →
        (t.stShort = true ↔ s.bitCount.toNat < 40) ∧
        (t.stCsum = true ↔ f4.toNat ≠ (f0.toNat + f1.toNat + f2.toNat + f3.toNat) % 256) ∧
        (t.stFresh = true ↔ valid f0 f1 f2 f3 f4 s.bitCount.toNat = true) ∧
        (t.stFresh = true ↔ t.stShort = false ∧ t.stCsum = false)) ∧
    (s.phase ≠ Phase.validate → t.stShort = s.stShort ∧ t.stCsum = s.stCsum ∧ t.stFresh = s.stFresh) ∧
    (s.phase = Phase.sampling →
      t.stAbort = (s.stAbort || (s.port.lineIn == s.lastLevel && s.spinCount == 254))) ∧
    (s.phase ≠ Phase.sampling → t.phase = Phase.hsLow → s.phase ≠ Phase.hsLow → t.stAbort = false) ∧
    (s.phase ≠ Phase.sampling → (t.phase = Phase.hsLow → s.phase = Phase.hsLow) → t.stAbort = s.stAbort)

/-- 60_exceptions.md section 1: in a `VALIDATE` step the frame is short exactly when the pass ended by the sampling timeout.
The step after a timeout finds the frame short; a forced `TAKE` then starts a new
attempt, a non-forced one keeps the timeout on record and assembles what is there. -/
def Obligations.TimeoutIsFollowedByShortFrame : Prop :=
  (∀ s : State, s.Inv → s.phase = Phase.validate → (s.bitCount.toNat < 40 ↔ s.stAbort = true)) ∧
  ∀ s : State, s.Inv → s.phase = Phase.sampling → s.port.rst = false → (s.portAt 1).rst = false →
    s.port.lineIn = s.lastLevel → s.spinCount = 254 →
    ∃ t u, step s = .next t ∧ step t = .next u ∧ t.stAbort = true ∧ t.phase = Phase.validate ∧
      u.stShort = true ∧ u.stFresh = false ∧
      (s.force = true → u.phase = Phase.hsLow ∧ u.stAbort = false ∧ (∀ a, Memory.read u.frame a = 0)) ∧
      (s.force = false → u.phase = Phase.assemble ∧ u.stAbort = true ∧ (∀ a, Memory.read u.frame a = Memory.read s.frame a))

/-! ## The assembler -/

/-- 43_assembler.md R144: `ASSEMBLE` copies the four data bytes and the capture time, pulses `rd_valid`, returns to `READY` and
changes nothing else. -/
def Obligations.AssembleWritesTheRecord : Prop :=
  ∀ (s : State) (f0 f1 f2 f3 f4 : Byte), s.frameBytes = [f0, f1, f2, f3, f4] →
    exec .assemble s = .next { s with
      rdHumInt := f0, rdHumFrac := f1, rdTmpInt := f2, rdTmpFrac := f3, rdTs := s.port.timeIn, rdValid := true,
      phase := Phase.ready }

/-- 43_assembler.md section 3: `DecVal` is the value of the decimal literal `DecStr`, for all 65536 pairs; it is never negative
and has at most three decimal places. Its largest value is 255.99, met at (255, 99): the range "0 to 255.255" that the section
names does not follow from its own definition of `DecVal`, which the model keeps (log 18). -/
def Obligations.DecValIsTheDecimalLiteral : Prop :=
  (∀ i f : Byte, parseDecimal (decStr i f) = some (decVal i f) ∧ 0 ≤ decVal i f ∧ decVal i f ≤ 25599 / 100 ∧
    ∃ n : Nat, decVal i f * 1000 = n) ∧
  decVal 255 99 = 25599 / 100 ∧ decVal 255 255 = 255255 / 1000

/-- 43_assembler.md section 3: the fraction byte is a literal decimal suffix, neither injective nor monotonic. -/
def Obligations.FractionByteIsALiteralSuffix : Prop :=
  ∀ i : Byte, decVal i 7 = decVal i 70 ∧ decVal i 5 = decVal i 50 ∧ decVal i 1 = decVal i 10 ∧ decVal i 1 = decVal i 100 ∧
    decVal i 2 = decVal i 20 ∧ decVal i 2 = decVal i 200 ∧ decVal i 0 = i.toNat ∧ decVal i 10 < decVal i 9 ∧
    decVal i 7 = i.toNat + 7 / 10

/-- 43_assembler.md section 4 and 30_encoding.md section 6: the record that an `ASSEMBLE` step leaves, Humidity first, both fields
tagged floating-point, and that equal decimal values have equal floating-point images. -/
def Obligations.ReadingIsBuiltFromTheDataBytes : Prop :=
  (∀ (s : State) (f0 f1 f2 f3 f4 : Byte), s.frameBytes = [f0, f1, f2, f3, f4] →
    ∃ t, exec .assemble s = .next t ∧ t.reading.name = "dht11" ∧ t.reading.timestamp = s.port.timeIn ∧
      t.reading.fields.map (fun d => (d.name, d.tag, d.value)) =
        [("Humidity", TypeTag.floatingPoint, decVal f0 f1), ("Temperature", TypeTag.floatingPoint, decVal f2 f3)]) ∧
  (∀ s t : State, s.reading.fields.map (·.value) = t.reading.fields.map (·.value) →
    s.reading.fields.map (·.image) = t.reading.fields.map (·.image))

/-- 43_assembler.md sections 1 and 5: the record of an `ASSEMBLE` step depends on the four data bytes and the capture time
alone, so a reading from an invalid frame is indistinguishable from one from a valid frame. -/
def Obligations.RecordDependsOnDataBytesOnly : Prop :=
  ∀ s t s' t' : State, exec .assemble s = .next s' → exec .assemble t = .next t' →
    s.frameBytes.take 4 = t.frameBytes.take 4 → s.port.timeIn = t.port.timeIn →
    s'.reading = t'.reading ∧ s'.rdHumInt = t'.rdHumInt ∧ s'.rdHumFrac = t'.rdHumFrac ∧ s'.rdTmpInt = t'.rdTmpInt ∧
    s'.rdTmpFrac = t'.rdTmpFrac ∧ s'.rdTs = t'.rdTs ∧ s'.rdValid = t'.rdValid

/-- 10_state.md R22 and R23: the record registers are written by the `ASSEMBLE` step only, and each pulse is 1 after a step
exactly when that step produced a reading or refused a command. -/
def Obligations.RecordAndPulseWrites : Prop :=
  ∀ s t : State, s.port.rst = false → step s = .next t →
    (s.phase ≠ Phase.assemble → t.rdHumInt = s.rdHumInt ∧ t.rdHumFrac = s.rdHumFrac ∧ t.rdTmpInt = s.rdTmpInt ∧
      t.rdTmpFrac = s.rdTmpFrac ∧ t.rdTs = s.rdTs) ∧
    (s.phase = Phase.assemble → t.rdHumInt = Memory.read s.frame 0 ∧ t.rdHumFrac = Memory.read s.frame 1 ∧
      t.rdTmpInt = Memory.read s.frame 2 ∧ t.rdTmpFrac = Memory.read s.frame 3 ∧ t.rdTs = s.port.timeIn) ∧
    (t.rdValid = true ↔ s.phase = Phase.assemble) ∧
    (t.cmdReject = true ↔ s.command ≠ 0b000#3 ∧ ¬ (s.command = 0b010#3 ∧ s.phase = Phase.uninit) ∧
      ¬ ((s.command = 0b100#3 ∨ s.command = 0b101#3 ∨ s.command = 0b110#3) ∧ s.phase = Phase.ready))

/-! ## Ports -/

/-- 10_state.md R20: the eight bits of `status_o`. -/
def Obligations.StatusPortBits : Prop :=
  ∀ s : State,
    s.statusO.getLsbD 0 = decide (s.phase = Phase.ready) ∧
    s.statusO.getLsbD 1 = decide (s.phase = Phase.hsLow ∨ s.phase = Phase.hsHigh ∨ s.phase = Phase.sampling ∨
      s.phase = Phase.validate ∨ s.phase = Phase.assemble) ∧
    s.statusO.getLsbD 2 = s.stFresh ∧ s.statusO.getLsbD 3 = s.stAbort ∧ s.statusO.getLsbD 4 = s.stShort ∧
    s.statusO.getLsbD 5 = s.stCsum ∧ s.statusO.getLsbD 6 = decide (s.phase = Phase.fatal) ∧
    s.statusO.getLsbD 7 = decide (s.phase = Phase.closed)

/-- 20_memory.md section 2: bit `39 - k` of `frame_o` is bit `7 - (k & 7)` of `frame[k >> 3]`. -/
def Obligations.FramePortOrder : Prop :=
  ∀ (s : State) (k : Nat), k < 40 →
    s.frameO.getLsbD (39 - k) = (Memory.read s.frame (k >>> 3)).getLsbD (7 - (k &&& 7))

/-- 10_state.md section 7: `line_in` is read in `SAMPLING` only, `time_in` in `ASSEMBLE` only, `init_ok` in the step that accepts `INIT`
only, and `cmd` not at all when `cmd_valid = 0`: elsewhere the level of the port makes no difference. -/
def Obligations.PortsAreReadOnlyWhereTheRulesSay : Prop :=
  ∀ (s : State) (p : PortIn) (ps : List PortIn),
    (s.phase ≠ Phase.sampling → ∀ x, step { s with inputs := { p with lineIn := x } :: ps } = step { s with inputs := p :: ps }) ∧
    (s.phase ≠ Phase.assemble → ∀ x, step { s with inputs := { p with timeIn := x } :: ps } = step { s with inputs := p :: ps }) ∧
    (¬ (s.phase = Phase.uninit ∧ p.cmdValid = true ∧ p.cmd = 0b010#3) →
      ∀ x, step { s with inputs := { p with initOk := x } :: ps } = step { s with inputs := p :: ps }) ∧
    (p.cmdValid = false → ∀ x, step { s with inputs := { p with cmd := x } :: ps } = step { s with inputs := p :: ps })

/-! ## Whole-machine rules -/

/-- 44_session.md R169: every change of `phase`, with its condition: no other change exists, and each is made where its
condition holds. -/
def Obligations.EveryPhaseChange : Prop :=
  (∀ s t : State, step s = .next t → s.port.rst = true → t.phase = Phase.uninit) ∧
  (∀ s t : State, step s = .next t → s.port.rst = false →
    (s.phase = Phase.uninit → s.command = 0b010#3 → t.phase = if s.port.initOk then Phase.ready else Phase.fatal) ∧
    (s.phase = Phase.ready → s.command = 0b100#3 ∨ s.command = 0b101#3 → t.phase = Phase.hsLow) ∧
    (s.phase = Phase.ready → s.command = 0b110#3 → t.phase = Phase.closed) ∧
    (s.phase = Phase.hsLow → s.hsCount.toNat + 1 = 18000 → t.phase = Phase.hsHigh) ∧
    (s.phase = Phase.hsHigh → s.hsCount.toNat + 1 = 40 → t.phase = Phase.sampling) ∧
    (s.phase = Phase.sampling → s.port.lineIn = s.lastLevel → s.spinCount.toNat + 1 = 255 → t.phase = Phase.validate) ∧
    (s.phase = Phase.sampling → s.port.lineIn ≠ s.lastLevel → s.tIndex.toNat + 1 = 83 → t.phase = Phase.validate) ∧
    (s.phase = Phase.validate → t.phase =
      if (s.shortFrame = true ∨ s.badChecksum = true) ∧ s.force = true then Phase.hsLow else Phase.assemble) ∧
    (s.phase = Phase.assemble → t.phase = Phase.ready)) ∧
  ∀ s t : State, step s = .next t → t.phase ≠ s.phase →
    (s.port.rst = true ∧ t.phase = Phase.uninit) ∨
    (s.port.rst = false ∧ (
      (s.phase = Phase.uninit ∧ t.phase = Phase.ready ∧ s.command = 0b010#3 ∧ s.port.initOk = true) ∨
      (s.phase = Phase.uninit ∧ t.phase = Phase.fatal ∧ s.command = 0b010#3 ∧ s.port.initOk = false) ∨
      (s.phase = Phase.ready ∧ t.phase = Phase.hsLow ∧ (s.command = 0b100#3 ∨ s.command = 0b101#3)) ∨
      (s.phase = Phase.ready ∧ t.phase = Phase.closed ∧ s.command = 0b110#3) ∨
      (s.phase = Phase.hsLow ∧ t.phase = Phase.hsHigh ∧ s.hsCount.toNat + 1 = 18000) ∨
      (s.phase = Phase.hsHigh ∧ t.phase = Phase.sampling ∧ s.hsCount.toNat + 1 = 40) ∨
      (s.phase = Phase.sampling ∧ t.phase = Phase.validate ∧ s.port.lineIn = s.lastLevel ∧ s.spinCount.toNat + 1 = 255) ∨
      (s.phase = Phase.sampling ∧ t.phase = Phase.validate ∧ s.port.lineIn ≠ s.lastLevel ∧ s.tIndex.toNat + 1 = 83) ∨
      (s.phase = Phase.validate ∧ t.phase = Phase.assemble ∧
        ((s.shortFrame = false ∧ s.badChecksum = false) ∨ s.force = false)) ∨
      (s.phase = Phase.validate ∧ t.phase = Phase.hsLow ∧
        (s.shortFrame = true ∨ s.badChecksum = true) ∧ s.force = true) ∨
      (s.phase = Phase.assemble ∧ t.phase = Phase.ready)))

/-- 20_memory.md section 1: in a step that is no reset the frame's bytes change only by an attempt start, which clears all five,
and by a classified transition, which changes the byte at `bitCount >> 3` alone. -/
def Obligations.FrameBytesAreWrittenOnlyBy : Prop :=
  ∀ s t : State, s.port.rst = false → step s = .next t →
    (t.phase = Phase.hsLow → s.phase ≠ Phase.hsLow → s.phase ≠ Phase.sampling → ∀ a, Memory.read t.frame a = 0) ∧
    ((t.phase = Phase.hsLow → s.phase = Phase.hsLow) →
      ∀ a, ¬ (s.phase = Phase.sampling ∧ s.port.lineIn ≠ s.lastLevel ∧ 4 ≤ s.tIndex.toNat ∧ s.tIndex.toNat % 2 = 0 ∧
        a = s.bitCount.toNat >>> 3) → Memory.read t.frame a = Memory.read s.frame a)

/-- 30_encoding.md R65: a step from a phase code 9 to 15 is a fault, by name, in every state, and no step writes such a code. -/
def Obligations.ReservedPhaseCodesFault : Prop :=
  (∀ s : State,
    exec .rsvPhase9 s = .fault (.reservedPhase 9#4) ∧ exec .rsvPhase10 s = .fault (.reservedPhase 10#4) ∧
    exec .rsvPhase11 s = .fault (.reservedPhase 11#4) ∧ exec .rsvPhase12 s = .fault (.reservedPhase 12#4) ∧
    exec .rsvPhase13 s = .fault (.reservedPhase 13#4) ∧ exec .rsvPhase14 s = .fault (.reservedPhase 14#4) ∧
    exec .rsvPhase15 s = .fault (.reservedPhase 15#4)) ∧
  (∀ s : State, s.port.rst = false → 9 ≤ s.phase.toNat → step s = .fault (.reservedPhase s.phase)) ∧
  (∀ s t : State, step s = .next t → t.phase.toNat ≤ 8)

/-! ## Invariants -/

/-- The reset state has the invariant (10_state.md section 11), whatever inputs are still to come. -/
def Obligations.ResetHasTheInvariant : Prop :=
  ∀ (inputs : List PortIn) (draws : Nat), State.Inv { State.reset with inputs := inputs, draws := draws }

/-- 10_state.md section 11: every step keeps the invariant. -/
def Obligations.EveryStepKeepsTheInvariant : Prop :=
  ∀ s t : State, s.Inv → step s = .next t → t.Inv

/-- 70_reset_and_hazards.md section 3: from a state that has the invariant the block never stops stepping, whatever the host and
the line present. -/
def Obligations.TheBlockNeverStops : Prop :=
  ∀ s : State, s.Inv → SafeOutcome (step s)

/-- 10_state.md R30: what holds in every state reachable from reset, under any inputs. -/
def Obligations.ReachableStatesKeepR30 : Prop :=
  ∀ (inputs : List PortIn) (draws n : Nat) (t : State),
    steps n { State.reset with inputs := inputs, draws := draws } = .next t → t.R30

/-- 10_state.md R31: `bitCount` and the frame in every state reachable from reset, under any inputs. -/
def Obligations.ReachableStatesKeepR31 : Prop :=
  ∀ (inputs : List PortIn) (draws n : Nat) (t : State),
    steps n { State.reset with inputs := inputs, draws := draws } = .next t → t.R31

/-! ## Headline results -/

/-- 44_session.md R162 and R163 with 70_reset_and_hazards.md R211: a non-forced `TAKE`, accepted in `READY` and left alone by
`rst`, ends after 18126 to 39208 steps in `READY` with the one `rd_valid` pulse; until then the block is busy. -/
def Obligations.NonForcedTakeTerminates : Prop :=
  ∀ s : State, s.Inv → s.phase = Phase.ready → s.port.cmdValid = true → s.port.cmd = 0b100#3 →
    (∀ i < 39208, (s.portAt i).rst = false) →
    ∃ k t, 18126 ≤ k ∧ k ≤ 39208 ∧ steps k s = .next t ∧ t.phase = Phase.ready ∧ t.rdValid = true ∧
      ∀ j, 0 < j → j < k →
        ∃ u, steps j s = .next u ∧ busy u.phase = true ∧ u.rdValid = false

/-- 44_session.md R161 with 70_reset_and_hazards.md R205: a forced `TAKE` on a line that stays high retries without bound: for
any number of steps the block is busy and has produced no reading. -/
def Obligations.ForcedTakeOnADeadLineNeverCompletes : Prop :=
  ∀ (k : Nat) (s : State), s.Inv → s.phase = Phase.ready → s.port.cmdValid = true → s.port.cmd = 0b101#3 → 0 < k →
    (∀ i < k, (s.portAt i).rst = false ∧ (s.portAt i).lineIn = Level.high) →
    ∃ t, steps k s = .next t ∧ busy t.phase = true ∧ t.rdValid = false ∧ t.force = true

/-- 41_decoder.md R119 and R120, 44_session.md R156: nothing of an earlier attempt enters a later one. Two blocks that are `READY`
and see the same inputs from a `TAKE` on are in the same state, but for the verdict flags and the last record, after every number
of steps; after a step that produced a reading they are in the same state altogether, record and verdict flags too. -/
def Obligations.AttemptsInheritNothing : Prop :=
  ∀ (s1 s2 : State) (k : Nat) (t1 : State), s1.phase = Phase.ready → s2.phase = Phase.ready →
    s1.inputs = s2.inputs → s1.draws = s2.draws →
    s1.port.rst = false → s1.port.cmdValid = true → (s1.port.cmd = 0b100#3 ∨ s1.port.cmd = 0b101#3) → 0 < k →
    steps k s1 = .next t1 →
    ∃ t2, steps k s2 = .next t2 ∧
      t2 = { t1 with
        stFresh := t2.stFresh, stShort := t2.stShort, stCsum := t2.stCsum,
        rdHumInt := t2.rdHumInt, rdHumFrac := t2.rdHumFrac, rdTmpInt := t2.rdTmpInt, rdTmpFrac := t2.rdTmpFrac,
        rdTs := t2.rdTs } ∧
      (t1.rdValid = true → t2 = t1)
end

