-- ==== Sys2Proof/Laws/Memory.lean ====
section
/-! SUPPORT. The frame space: what a read sees after a write, and that every write keeps the canonical form. -/

namespace Sys2Proof.Machine

@[simp] theorem read_nil (a : Nat) : Memory.read [] a = 0 := rfl

/-- The reset memory, which is also the memory after an attempt start, is canonical. -/
@[simp] theorem wf_nil : Memory.wf [] := by simp [Memory.wf]

/-- A write leaves every other address alone. -/
theorem read_write_other (m : Memory) {a b : Nat} (v : Byte) (h : b ≠ a) :
    Memory.read (Memory.write m a v) b = Memory.read m b := by
  induction m with
  | nil => simp only [Memory.write]; split <;> simp [Memory.read, h]
  | cons c m ih =>
    obtain ⟨x, w⟩ := c
    simp only [Memory.write]
    split
    · split <;> simp [Memory.read, h]
    · split
      · subst_vars
        split <;> simp [Memory.read, h]
      · simp [Memory.read, ih]

/-- An address below every listed one reads as 0. -/
theorem read_of_lt (m : Memory) {a : Nat} (h : ∀ c ∈ m, a < c.1) : Memory.read m a = 0 := by
  induction m with
  | nil => rfl
  | cons c m ih =>
    obtain ⟨x, w⟩ := c
    have hx : a ≠ x := Nat.ne_of_lt (h (x, w) (by simp))
    simp only [Memory.read, hx, if_false]
    exact ih fun d hd => h d (by simp [hd])

/-- A read after a write to the same address gives the byte written, in a memory of rising addresses. -/
theorem read_write_same (m : Memory) (a : Nat) (v : Byte) (h : m.Pairwise (fun x y => x.1 < y.1)) :
    Memory.read (Memory.write m a v) a = v := by
  induction m with
  | nil => simp only [Memory.write]; split <;> simp_all [Memory.read]
  | cons c m ih =>
    obtain ⟨x, w⟩ := c
    obtain ⟨hx, hm⟩ := List.pairwise_cons.1 h
    simp only [Memory.write]
    split
    · rename_i hlt
      split
      · subst_vars
        refine read_of_lt _ fun d hd => ?_
        rcases List.mem_cons.1 hd with rfl | hd
        · exact hlt
        · exact Nat.lt_trans hlt (hx d hd)
      · simp [Memory.read]
    · split
      · subst_vars
        split
        · subst_vars; exact read_of_lt _ hx
        · simp [Memory.read]
      · rename_i hne
        simp [Memory.read, hne, ih hm]

/-- A cell of a written memory is the new cell or an old one. -/
theorem mem_write {m : Memory} {a : Nat} {v : Byte} {c : Host.Cell} (h : c ∈ Memory.write m a v) :
    (c = (a, v) ∧ v ≠ 0) ∨ c ∈ m := by
  induction m with
  | nil =>
    simp only [Memory.write] at h
    split at h <;> simp_all
  | cons d m ih =>
    obtain ⟨x, w⟩ := d
    simp only [Memory.write] at h
    split at h
    · split at h <;> simp_all
    · split at h
      · split at h
        · simp_all
        · rcases List.mem_cons.1 h with rfl | h <;> simp_all
      · rcases List.mem_cons.1 h with rfl | h
        · simp
        · rcases ih h with h | h
          · exact .inl h
          · exact .inr (List.mem_cons_of_mem _ h)

/-- Every write at an address of the space keeps the canonical form. -/
theorem write_wf {m : Memory} {a : Nat} {v : Byte} (h : Memory.wf m) (ha : a < Config.frameBytes) :
    Memory.wf (Memory.write m a v) := by
  refine ⟨?_, fun c hc => ?_⟩
  · have hp := h.1
    clear h
    induction m with
    | nil => simp only [Memory.write]; split <;> simp
    | cons d m ih =>
      obtain ⟨x, w⟩ := d
      obtain ⟨hx, hm⟩ := List.pairwise_cons.1 hp
      simp only [Memory.write]
      split
      · rename_i hlt
        split
        · exact hp
        · refine List.pairwise_cons.2 ⟨fun e he => ?_, hp⟩
          rcases List.mem_cons.1 he with rfl | he
          · exact hlt
          · exact Nat.lt_trans hlt (hx e he)
      · split
        · subst_vars
          split
          · exact hm
          · exact List.pairwise_cons.2 ⟨hx, hm⟩
        · rename_i h1 h2
          refine List.pairwise_cons.2 ⟨fun e he => ?_, ih hm⟩
          rcases mem_write he with ⟨rfl, -⟩ | he
          · exact Nat.lt_of_le_of_ne (Nat.le_of_not_lt h1) (Ne.symm h2)
          · exact hx e he
  · rcases mem_write hc with ⟨rfl, hv⟩ | hc
    · exact ⟨ha, hv⟩
    · exact h.2 c hc

/-- Equal reads make equal canonical memories. -/
theorem wf_ext {m n : Memory} (hm : Memory.wf m) (hn : Memory.wf n)
    (h : ∀ a, Memory.read m a = Memory.read n a) : m = n := by
  induction m generalizing n with
  | nil =>
    cases n with
    | nil => rfl
    | cons d n =>
      obtain ⟨y, w⟩ := d
      have := h y
      simp only [Memory.read, if_true] at this
      exact absurd this.symm (hn.2 (y, w) (by simp)).2
  | cons c m ih =>
    obtain ⟨x, v⟩ := c
    have hv : v ≠ 0 := (hm.2 (x, v) (by simp)).2
    obtain ⟨hx, hpm⟩ := List.pairwise_cons.1 hm.1
    cases n with
    | nil =>
      have := h x
      simp only [Memory.read, if_true] at this
      exact absurd this hv
    | cons d n =>
      obtain ⟨y, w⟩ := d
      have hw : w ≠ 0 := (hn.2 (y, w) (by simp)).2
      obtain ⟨hy, hpn⟩ := List.pairwise_cons.1 hn.1
      have hxy : x = y := by
        rcases Nat.lt_trichotomy x y with hlt | heq | hgt
        · have := h x
          rw [read_of_lt ((y, w) :: n) (by
            intro e he
            rcases List.mem_cons.1 he with rfl | he
            · exact hlt
            · exact Nat.lt_trans hlt (hy e he))] at this
          simp only [Memory.read, if_true] at this
          exact absurd this hv
        · exact heq
        · have := h y
          rw [read_of_lt ((x, v) :: m) (by
            intro e he
            rcases List.mem_cons.1 he with rfl | he
            · exact hgt
            · exact Nat.lt_trans hgt (hx e he))] at this
          simp only [Memory.read, if_true] at this
          exact absurd this.symm hw
      subst hxy
      have hvw : v = w := by simpa [Memory.read] using h x
      subst hvw
      congr 1
      refine ih ⟨hpm, fun e he => hm.2 e (by simp [he])⟩ ⟨hpn, fun e he => hn.2 e (by simp [he])⟩ fun a => ?_
      by_cases ha : a = x
      · subst ha
        rw [read_of_lt m hx, read_of_lt n hy]
      · simpa [Memory.read, ha] using h a

/-- `MemRead` answers exactly at the addresses 0 to 4 (20_memory.md R40). -/
theorem memRead_spec (m : Memory) (a : Nat) :
    (a < 5 ∧ memRead m a = .ok (Memory.read m a)) ∨ (5 ≤ a ∧ memRead m a = .error (.frameAddress a)) := by
  unfold memRead
  by_cases h : a < 5
  · simp [h]
  · simp [h]; omega

/-- `MemWrite` answers exactly at the addresses 0 to 4 (20_memory.md R40). -/
theorem memWrite_spec (m : Memory) (a : Nat) (v : Byte) :
    (a < 5 ∧ memWrite m a v = .ok (Memory.write m a v)) ∨ (5 ≤ a ∧ memWrite m a v = .error (.frameAddress a)) := by
  unfold memWrite
  by_cases h : a < 5
  · simp [h]
  · simp [h]; omega

end Sys2Proof.Machine
end

