-- ==== Sys2Proof/Laws/Phases.lean ====
section
/-! SUPPORT. The nine phase codes are distinct (30_encoding.md R64). -/

namespace Sys2Proof

@[simp] theorem uninit_ne_ready : (Phase.uninit = Phase.ready) = False := by decide
@[simp] theorem uninit_ne_hsLow : (Phase.uninit = Phase.hsLow) = False := by decide
@[simp] theorem uninit_ne_hsHigh : (Phase.uninit = Phase.hsHigh) = False := by decide
@[simp] theorem uninit_ne_sampling : (Phase.uninit = Phase.sampling) = False := by decide
@[simp] theorem uninit_ne_validate : (Phase.uninit = Phase.validate) = False := by decide
@[simp] theorem uninit_ne_assemble : (Phase.uninit = Phase.assemble) = False := by decide
@[simp] theorem uninit_ne_fatal : (Phase.uninit = Phase.fatal) = False := by decide
@[simp] theorem uninit_ne_closed : (Phase.uninit = Phase.closed) = False := by decide
@[simp] theorem ready_ne_uninit : (Phase.ready = Phase.uninit) = False := by decide
@[simp] theorem ready_ne_hsLow : (Phase.ready = Phase.hsLow) = False := by decide
@[simp] theorem ready_ne_hsHigh : (Phase.ready = Phase.hsHigh) = False := by decide
@[simp] theorem ready_ne_sampling : (Phase.ready = Phase.sampling) = False := by decide
@[simp] theorem ready_ne_validate : (Phase.ready = Phase.validate) = False := by decide
@[simp] theorem ready_ne_assemble : (Phase.ready = Phase.assemble) = False := by decide
@[simp] theorem ready_ne_fatal : (Phase.ready = Phase.fatal) = False := by decide
@[simp] theorem ready_ne_closed : (Phase.ready = Phase.closed) = False := by decide
@[simp] theorem hsLow_ne_uninit : (Phase.hsLow = Phase.uninit) = False := by decide
@[simp] theorem hsLow_ne_ready : (Phase.hsLow = Phase.ready) = False := by decide
@[simp] theorem hsLow_ne_hsHigh : (Phase.hsLow = Phase.hsHigh) = False := by decide
@[simp] theorem hsLow_ne_sampling : (Phase.hsLow = Phase.sampling) = False := by decide
@[simp] theorem hsLow_ne_validate : (Phase.hsLow = Phase.validate) = False := by decide
@[simp] theorem hsLow_ne_assemble : (Phase.hsLow = Phase.assemble) = False := by decide
@[simp] theorem hsLow_ne_fatal : (Phase.hsLow = Phase.fatal) = False := by decide
@[simp] theorem hsLow_ne_closed : (Phase.hsLow = Phase.closed) = False := by decide
@[simp] theorem hsHigh_ne_uninit : (Phase.hsHigh = Phase.uninit) = False := by decide
@[simp] theorem hsHigh_ne_ready : (Phase.hsHigh = Phase.ready) = False := by decide
@[simp] theorem hsHigh_ne_hsLow : (Phase.hsHigh = Phase.hsLow) = False := by decide
@[simp] theorem hsHigh_ne_sampling : (Phase.hsHigh = Phase.sampling) = False := by decide
@[simp] theorem hsHigh_ne_validate : (Phase.hsHigh = Phase.validate) = False := by decide
@[simp] theorem hsHigh_ne_assemble : (Phase.hsHigh = Phase.assemble) = False := by decide
@[simp] theorem hsHigh_ne_fatal : (Phase.hsHigh = Phase.fatal) = False := by decide
@[simp] theorem hsHigh_ne_closed : (Phase.hsHigh = Phase.closed) = False := by decide
@[simp] theorem sampling_ne_uninit : (Phase.sampling = Phase.uninit) = False := by decide
@[simp] theorem sampling_ne_ready : (Phase.sampling = Phase.ready) = False := by decide
@[simp] theorem sampling_ne_hsLow : (Phase.sampling = Phase.hsLow) = False := by decide
@[simp] theorem sampling_ne_hsHigh : (Phase.sampling = Phase.hsHigh) = False := by decide
@[simp] theorem sampling_ne_validate : (Phase.sampling = Phase.validate) = False := by decide
@[simp] theorem sampling_ne_assemble : (Phase.sampling = Phase.assemble) = False := by decide
@[simp] theorem sampling_ne_fatal : (Phase.sampling = Phase.fatal) = False := by decide
@[simp] theorem sampling_ne_closed : (Phase.sampling = Phase.closed) = False := by decide
@[simp] theorem validate_ne_uninit : (Phase.validate = Phase.uninit) = False := by decide
@[simp] theorem validate_ne_ready : (Phase.validate = Phase.ready) = False := by decide
@[simp] theorem validate_ne_hsLow : (Phase.validate = Phase.hsLow) = False := by decide
@[simp] theorem validate_ne_hsHigh : (Phase.validate = Phase.hsHigh) = False := by decide
@[simp] theorem validate_ne_sampling : (Phase.validate = Phase.sampling) = False := by decide
@[simp] theorem validate_ne_assemble : (Phase.validate = Phase.assemble) = False := by decide
@[simp] theorem validate_ne_fatal : (Phase.validate = Phase.fatal) = False := by decide
@[simp] theorem validate_ne_closed : (Phase.validate = Phase.closed) = False := by decide
@[simp] theorem assemble_ne_uninit : (Phase.assemble = Phase.uninit) = False := by decide
@[simp] theorem assemble_ne_ready : (Phase.assemble = Phase.ready) = False := by decide
@[simp] theorem assemble_ne_hsLow : (Phase.assemble = Phase.hsLow) = False := by decide
@[simp] theorem assemble_ne_hsHigh : (Phase.assemble = Phase.hsHigh) = False := by decide
@[simp] theorem assemble_ne_sampling : (Phase.assemble = Phase.sampling) = False := by decide
@[simp] theorem assemble_ne_validate : (Phase.assemble = Phase.validate) = False := by decide
@[simp] theorem assemble_ne_fatal : (Phase.assemble = Phase.fatal) = False := by decide
@[simp] theorem assemble_ne_closed : (Phase.assemble = Phase.closed) = False := by decide
@[simp] theorem fatal_ne_uninit : (Phase.fatal = Phase.uninit) = False := by decide
@[simp] theorem fatal_ne_ready : (Phase.fatal = Phase.ready) = False := by decide
@[simp] theorem fatal_ne_hsLow : (Phase.fatal = Phase.hsLow) = False := by decide
@[simp] theorem fatal_ne_hsHigh : (Phase.fatal = Phase.hsHigh) = False := by decide
@[simp] theorem fatal_ne_sampling : (Phase.fatal = Phase.sampling) = False := by decide
@[simp] theorem fatal_ne_validate : (Phase.fatal = Phase.validate) = False := by decide
@[simp] theorem fatal_ne_assemble : (Phase.fatal = Phase.assemble) = False := by decide
@[simp] theorem fatal_ne_closed : (Phase.fatal = Phase.closed) = False := by decide
@[simp] theorem closed_ne_uninit : (Phase.closed = Phase.uninit) = False := by decide
@[simp] theorem closed_ne_ready : (Phase.closed = Phase.ready) = False := by decide
@[simp] theorem closed_ne_hsLow : (Phase.closed = Phase.hsLow) = False := by decide
@[simp] theorem closed_ne_hsHigh : (Phase.closed = Phase.hsHigh) = False := by decide
@[simp] theorem closed_ne_sampling : (Phase.closed = Phase.sampling) = False := by decide
@[simp] theorem closed_ne_validate : (Phase.closed = Phase.validate) = False := by decide
@[simp] theorem closed_ne_assemble : (Phase.closed = Phase.assemble) = False := by decide
@[simp] theorem closed_ne_fatal : (Phase.closed = Phase.fatal) = False := by decide

end Sys2Proof
end

