-- ==== Sys2Proof/Laws/State.lean ====
section
/-! SUPPORT. What each named update of the state does to each field, true by definition. -/

namespace Sys2Proof.Machine

variable (s : State)

/-! ## clearPulses -/

@[simp] theorem clearPulses_frame : s.clearPulses.frame = s.frame := rfl
@[simp] theorem clearPulses_bitCount : s.clearPulses.bitCount = s.bitCount := rfl
@[simp] theorem clearPulses_spinCount : s.clearPulses.spinCount = s.spinCount := rfl
@[simp] theorem clearPulses_lastLevel : s.clearPulses.lastLevel = s.lastLevel := rfl
@[simp] theorem clearPulses_tIndex : s.clearPulses.tIndex = s.tIndex := rfl
@[simp] theorem clearPulses_hsCount : s.clearPulses.hsCount = s.hsCount := rfl
@[simp] theorem clearPulses_phase : s.clearPulses.phase = s.phase := rfl
@[simp] theorem clearPulses_force : s.clearPulses.force = s.force := rfl
@[simp] theorem clearPulses_stFresh : s.clearPulses.stFresh = s.stFresh := rfl
@[simp] theorem clearPulses_stShort : s.clearPulses.stShort = s.stShort := rfl
@[simp] theorem clearPulses_stCsum : s.clearPulses.stCsum = s.stCsum := rfl
@[simp] theorem clearPulses_stAbort : s.clearPulses.stAbort = s.stAbort := rfl
@[simp] theorem clearPulses_lineOe : s.clearPulses.lineOe = s.lineOe := rfl
@[simp] theorem clearPulses_lineOut : s.clearPulses.lineOut = s.lineOut := rfl
@[simp] theorem clearPulses_rdHumInt : s.clearPulses.rdHumInt = s.rdHumInt := rfl
@[simp] theorem clearPulses_rdHumFrac : s.clearPulses.rdHumFrac = s.rdHumFrac := rfl
@[simp] theorem clearPulses_rdTmpInt : s.clearPulses.rdTmpInt = s.rdTmpInt := rfl
@[simp] theorem clearPulses_rdTmpFrac : s.clearPulses.rdTmpFrac = s.rdTmpFrac := rfl
@[simp] theorem clearPulses_rdTs : s.clearPulses.rdTs = s.rdTs := rfl
@[simp] theorem clearPulses_rdValid : s.clearPulses.rdValid = false := rfl
@[simp] theorem clearPulses_cmdReject : s.clearPulses.cmdReject = false := rfl
@[simp] theorem clearPulses_inputs : s.clearPulses.inputs = s.inputs := rfl
@[simp] theorem clearPulses_draws : s.clearPulses.draws = s.draws := rfl

/-! ## advance -/

@[simp] theorem advance_frame : s.advance.frame = s.frame := rfl
@[simp] theorem advance_bitCount : s.advance.bitCount = s.bitCount := rfl
@[simp] theorem advance_spinCount : s.advance.spinCount = s.spinCount := rfl
@[simp] theorem advance_lastLevel : s.advance.lastLevel = s.lastLevel := rfl
@[simp] theorem advance_tIndex : s.advance.tIndex = s.tIndex := rfl
@[simp] theorem advance_hsCount : s.advance.hsCount = s.hsCount := rfl
@[simp] theorem advance_phase : s.advance.phase = s.phase := rfl
@[simp] theorem advance_force : s.advance.force = s.force := rfl
@[simp] theorem advance_stFresh : s.advance.stFresh = s.stFresh := rfl
@[simp] theorem advance_stShort : s.advance.stShort = s.stShort := rfl
@[simp] theorem advance_stCsum : s.advance.stCsum = s.stCsum := rfl
@[simp] theorem advance_stAbort : s.advance.stAbort = s.stAbort := rfl
@[simp] theorem advance_lineOe : s.advance.lineOe = s.lineOe := rfl
@[simp] theorem advance_lineOut : s.advance.lineOut = s.lineOut := rfl
@[simp] theorem advance_rdHumInt : s.advance.rdHumInt = s.rdHumInt := rfl
@[simp] theorem advance_rdHumFrac : s.advance.rdHumFrac = s.rdHumFrac := rfl
@[simp] theorem advance_rdTmpInt : s.advance.rdTmpInt = s.rdTmpInt := rfl
@[simp] theorem advance_rdTmpFrac : s.advance.rdTmpFrac = s.rdTmpFrac := rfl
@[simp] theorem advance_rdTs : s.advance.rdTs = s.rdTs := rfl
@[simp] theorem advance_rdValid : s.advance.rdValid = s.rdValid := rfl
@[simp] theorem advance_cmdReject : s.advance.cmdReject = s.cmdReject := rfl
@[simp] theorem advance_inputs : s.advance.inputs = s.inputs.tail := rfl
@[simp] theorem advance_draws : s.advance.draws = s.draws + 1 := rfl

/-! ## applyReset -/

@[simp] theorem applyReset_frame : s.applyReset.frame = State.reset.frame := rfl
@[simp] theorem applyReset_bitCount : s.applyReset.bitCount = State.reset.bitCount := rfl
@[simp] theorem applyReset_spinCount : s.applyReset.spinCount = State.reset.spinCount := rfl
@[simp] theorem applyReset_lastLevel : s.applyReset.lastLevel = State.reset.lastLevel := rfl
@[simp] theorem applyReset_tIndex : s.applyReset.tIndex = State.reset.tIndex := rfl
@[simp] theorem applyReset_hsCount : s.applyReset.hsCount = State.reset.hsCount := rfl
@[simp] theorem applyReset_phase : s.applyReset.phase = State.reset.phase := rfl
@[simp] theorem applyReset_force : s.applyReset.force = State.reset.force := rfl
@[simp] theorem applyReset_stFresh : s.applyReset.stFresh = State.reset.stFresh := rfl
@[simp] theorem applyReset_stShort : s.applyReset.stShort = State.reset.stShort := rfl
@[simp] theorem applyReset_stCsum : s.applyReset.stCsum = State.reset.stCsum := rfl
@[simp] theorem applyReset_stAbort : s.applyReset.stAbort = State.reset.stAbort := rfl
@[simp] theorem applyReset_lineOe : s.applyReset.lineOe = State.reset.lineOe := rfl
@[simp] theorem applyReset_lineOut : s.applyReset.lineOut = State.reset.lineOut := rfl
@[simp] theorem applyReset_rdHumInt : s.applyReset.rdHumInt = State.reset.rdHumInt := rfl
@[simp] theorem applyReset_rdHumFrac : s.applyReset.rdHumFrac = State.reset.rdHumFrac := rfl
@[simp] theorem applyReset_rdTmpInt : s.applyReset.rdTmpInt = State.reset.rdTmpInt := rfl
@[simp] theorem applyReset_rdTmpFrac : s.applyReset.rdTmpFrac = State.reset.rdTmpFrac := rfl
@[simp] theorem applyReset_rdTs : s.applyReset.rdTs = State.reset.rdTs := rfl
@[simp] theorem applyReset_rdValid : s.applyReset.rdValid = State.reset.rdValid := rfl
@[simp] theorem applyReset_cmdReject : s.applyReset.cmdReject = State.reset.cmdReject := rfl
@[simp] theorem applyReset_inputs : s.applyReset.inputs = s.inputs := rfl
@[simp] theorem applyReset_draws : s.applyReset.draws = s.draws := rfl

/-! ## startAttempt -/

@[simp] theorem startAttempt_frame : (startAttempt s).frame = [] := rfl
@[simp] theorem startAttempt_bitCount : (startAttempt s).bitCount = 0 := rfl
@[simp] theorem startAttempt_spinCount : (startAttempt s).spinCount = 0 := rfl
@[simp] theorem startAttempt_lastLevel : (startAttempt s).lastLevel = Level.high := rfl
@[simp] theorem startAttempt_tIndex : (startAttempt s).tIndex = 0 := rfl
@[simp] theorem startAttempt_hsCount : (startAttempt s).hsCount = 0 := rfl
@[simp] theorem startAttempt_phase : (startAttempt s).phase = Phase.hsLow := rfl
@[simp] theorem startAttempt_force : (startAttempt s).force = s.force := rfl
@[simp] theorem startAttempt_stFresh : (startAttempt s).stFresh = s.stFresh := rfl
@[simp] theorem startAttempt_stShort : (startAttempt s).stShort = s.stShort := rfl
@[simp] theorem startAttempt_stCsum : (startAttempt s).stCsum = s.stCsum := rfl
@[simp] theorem startAttempt_stAbort : (startAttempt s).stAbort = false := rfl
@[simp] theorem startAttempt_lineOe : (startAttempt s).lineOe = true := rfl
@[simp] theorem startAttempt_lineOut : (startAttempt s).lineOut = Level.low := rfl
@[simp] theorem startAttempt_rdHumInt : (startAttempt s).rdHumInt = s.rdHumInt := rfl
@[simp] theorem startAttempt_rdHumFrac : (startAttempt s).rdHumFrac = s.rdHumFrac := rfl
@[simp] theorem startAttempt_rdTmpInt : (startAttempt s).rdTmpInt = s.rdTmpInt := rfl
@[simp] theorem startAttempt_rdTmpFrac : (startAttempt s).rdTmpFrac = s.rdTmpFrac := rfl
@[simp] theorem startAttempt_rdTs : (startAttempt s).rdTs = s.rdTs := rfl
@[simp] theorem startAttempt_rdValid : (startAttempt s).rdValid = s.rdValid := rfl
@[simp] theorem startAttempt_cmdReject : (startAttempt s).cmdReject = s.cmdReject := rfl
@[simp] theorem startAttempt_inputs : (startAttempt s).inputs = s.inputs := rfl
@[simp] theorem startAttempt_draws : (startAttempt s).draws = s.draws := rfl

/-! ## refuseCommand -/

@[simp] theorem refuseCommand_frame : (refuseCommand s).frame = s.frame := rfl
@[simp] theorem refuseCommand_bitCount : (refuseCommand s).bitCount = s.bitCount := rfl
@[simp] theorem refuseCommand_spinCount : (refuseCommand s).spinCount = s.spinCount := rfl
@[simp] theorem refuseCommand_lastLevel : (refuseCommand s).lastLevel = s.lastLevel := rfl
@[simp] theorem refuseCommand_tIndex : (refuseCommand s).tIndex = s.tIndex := rfl
@[simp] theorem refuseCommand_hsCount : (refuseCommand s).hsCount = s.hsCount := rfl
@[simp] theorem refuseCommand_phase : (refuseCommand s).phase = s.phase := rfl
@[simp] theorem refuseCommand_force : (refuseCommand s).force = s.force := rfl
@[simp] theorem refuseCommand_stFresh : (refuseCommand s).stFresh = s.stFresh := rfl
@[simp] theorem refuseCommand_stShort : (refuseCommand s).stShort = s.stShort := rfl
@[simp] theorem refuseCommand_stCsum : (refuseCommand s).stCsum = s.stCsum := rfl
@[simp] theorem refuseCommand_stAbort : (refuseCommand s).stAbort = s.stAbort := rfl
@[simp] theorem refuseCommand_lineOe : (refuseCommand s).lineOe = s.lineOe := rfl
@[simp] theorem refuseCommand_lineOut : (refuseCommand s).lineOut = s.lineOut := rfl
@[simp] theorem refuseCommand_rdHumInt : (refuseCommand s).rdHumInt = s.rdHumInt := rfl
@[simp] theorem refuseCommand_rdHumFrac : (refuseCommand s).rdHumFrac = s.rdHumFrac := rfl
@[simp] theorem refuseCommand_rdTmpInt : (refuseCommand s).rdTmpInt = s.rdTmpInt := rfl
@[simp] theorem refuseCommand_rdTmpFrac : (refuseCommand s).rdTmpFrac = s.rdTmpFrac := rfl
@[simp] theorem refuseCommand_rdTs : (refuseCommand s).rdTs = s.rdTs := rfl
@[simp] theorem refuseCommand_rdValid : (refuseCommand s).rdValid = s.rdValid := rfl
@[simp] theorem refuseCommand_cmdReject : (refuseCommand s).cmdReject = true := rfl
@[simp] theorem refuseCommand_inputs : (refuseCommand s).inputs = s.inputs := rfl
@[simp] theorem refuseCommand_draws : (refuseCommand s).draws = s.draws := rfl

/-! ## raise_initFail -/

@[simp] theorem raise_initFail_frame : (raise .initFail s).frame = s.frame := rfl
@[simp] theorem raise_initFail_bitCount : (raise .initFail s).bitCount = s.bitCount := rfl
@[simp] theorem raise_initFail_spinCount : (raise .initFail s).spinCount = s.spinCount := rfl
@[simp] theorem raise_initFail_lastLevel : (raise .initFail s).lastLevel = s.lastLevel := rfl
@[simp] theorem raise_initFail_tIndex : (raise .initFail s).tIndex = s.tIndex := rfl
@[simp] theorem raise_initFail_hsCount : (raise .initFail s).hsCount = s.hsCount := rfl
@[simp] theorem raise_initFail_phase : (raise .initFail s).phase = Phase.fatal := rfl
@[simp] theorem raise_initFail_force : (raise .initFail s).force = s.force := rfl
@[simp] theorem raise_initFail_stFresh : (raise .initFail s).stFresh = s.stFresh := rfl
@[simp] theorem raise_initFail_stShort : (raise .initFail s).stShort = s.stShort := rfl
@[simp] theorem raise_initFail_stCsum : (raise .initFail s).stCsum = s.stCsum := rfl
@[simp] theorem raise_initFail_stAbort : (raise .initFail s).stAbort = s.stAbort := rfl
@[simp] theorem raise_initFail_lineOe : (raise .initFail s).lineOe = s.lineOe := rfl
@[simp] theorem raise_initFail_lineOut : (raise .initFail s).lineOut = s.lineOut := rfl
@[simp] theorem raise_initFail_rdHumInt : (raise .initFail s).rdHumInt = s.rdHumInt := rfl
@[simp] theorem raise_initFail_rdHumFrac : (raise .initFail s).rdHumFrac = s.rdHumFrac := rfl
@[simp] theorem raise_initFail_rdTmpInt : (raise .initFail s).rdTmpInt = s.rdTmpInt := rfl
@[simp] theorem raise_initFail_rdTmpFrac : (raise .initFail s).rdTmpFrac = s.rdTmpFrac := rfl
@[simp] theorem raise_initFail_rdTs : (raise .initFail s).rdTs = s.rdTs := rfl
@[simp] theorem raise_initFail_rdValid : (raise .initFail s).rdValid = s.rdValid := rfl
@[simp] theorem raise_initFail_cmdReject : (raise .initFail s).cmdReject = s.cmdReject := rfl
@[simp] theorem raise_initFail_inputs : (raise .initFail s).inputs = s.inputs := rfl
@[simp] theorem raise_initFail_draws : (raise .initFail s).draws = s.draws := rfl

/-! ## raise_sampleTimeout -/

@[simp] theorem raise_sampleTimeout_frame : (raise .sampleTimeout s).frame = s.frame := rfl
@[simp] theorem raise_sampleTimeout_bitCount : (raise .sampleTimeout s).bitCount = s.bitCount := rfl
@[simp] theorem raise_sampleTimeout_spinCount : (raise .sampleTimeout s).spinCount = s.spinCount := rfl
@[simp] theorem raise_sampleTimeout_lastLevel : (raise .sampleTimeout s).lastLevel = s.lastLevel := rfl
@[simp] theorem raise_sampleTimeout_tIndex : (raise .sampleTimeout s).tIndex = s.tIndex := rfl
@[simp] theorem raise_sampleTimeout_hsCount : (raise .sampleTimeout s).hsCount = s.hsCount := rfl
@[simp] theorem raise_sampleTimeout_phase : (raise .sampleTimeout s).phase = s.phase := rfl
@[simp] theorem raise_sampleTimeout_force : (raise .sampleTimeout s).force = s.force := rfl
@[simp] theorem raise_sampleTimeout_stFresh : (raise .sampleTimeout s).stFresh = s.stFresh := rfl
@[simp] theorem raise_sampleTimeout_stShort : (raise .sampleTimeout s).stShort = s.stShort := rfl
@[simp] theorem raise_sampleTimeout_stCsum : (raise .sampleTimeout s).stCsum = s.stCsum := rfl
@[simp] theorem raise_sampleTimeout_stAbort : (raise .sampleTimeout s).stAbort = true := rfl
@[simp] theorem raise_sampleTimeout_lineOe : (raise .sampleTimeout s).lineOe = s.lineOe := rfl
@[simp] theorem raise_sampleTimeout_lineOut : (raise .sampleTimeout s).lineOut = s.lineOut := rfl
@[simp] theorem raise_sampleTimeout_rdHumInt : (raise .sampleTimeout s).rdHumInt = s.rdHumInt := rfl
@[simp] theorem raise_sampleTimeout_rdHumFrac : (raise .sampleTimeout s).rdHumFrac = s.rdHumFrac := rfl
@[simp] theorem raise_sampleTimeout_rdTmpInt : (raise .sampleTimeout s).rdTmpInt = s.rdTmpInt := rfl
@[simp] theorem raise_sampleTimeout_rdTmpFrac : (raise .sampleTimeout s).rdTmpFrac = s.rdTmpFrac := rfl
@[simp] theorem raise_sampleTimeout_rdTs : (raise .sampleTimeout s).rdTs = s.rdTs := rfl
@[simp] theorem raise_sampleTimeout_rdValid : (raise .sampleTimeout s).rdValid = s.rdValid := rfl
@[simp] theorem raise_sampleTimeout_cmdReject : (raise .sampleTimeout s).cmdReject = s.cmdReject := rfl
@[simp] theorem raise_sampleTimeout_inputs : (raise .sampleTimeout s).inputs = s.inputs := rfl
@[simp] theorem raise_sampleTimeout_draws : (raise .sampleTimeout s).draws = s.draws := rfl

/-! ## raise_shortFrame -/

@[simp] theorem raise_shortFrame_frame : (raise .shortFrame s).frame = s.frame := rfl
@[simp] theorem raise_shortFrame_bitCount : (raise .shortFrame s).bitCount = s.bitCount := rfl
@[simp] theorem raise_shortFrame_spinCount : (raise .shortFrame s).spinCount = s.spinCount := rfl
@[simp] theorem raise_shortFrame_lastLevel : (raise .shortFrame s).lastLevel = s.lastLevel := rfl
@[simp] theorem raise_shortFrame_tIndex : (raise .shortFrame s).tIndex = s.tIndex := rfl
@[simp] theorem raise_shortFrame_hsCount : (raise .shortFrame s).hsCount = s.hsCount := rfl
@[simp] theorem raise_shortFrame_phase : (raise .shortFrame s).phase = s.phase := rfl
@[simp] theorem raise_shortFrame_force : (raise .shortFrame s).force = s.force := rfl
@[simp] theorem raise_shortFrame_stFresh : (raise .shortFrame s).stFresh = false := rfl
@[simp] theorem raise_shortFrame_stShort : (raise .shortFrame s).stShort = true := rfl
@[simp] theorem raise_shortFrame_stCsum : (raise .shortFrame s).stCsum = s.stCsum := rfl
@[simp] theorem raise_shortFrame_stAbort : (raise .shortFrame s).stAbort = s.stAbort := rfl
@[simp] theorem raise_shortFrame_lineOe : (raise .shortFrame s).lineOe = s.lineOe := rfl
@[simp] theorem raise_shortFrame_lineOut : (raise .shortFrame s).lineOut = s.lineOut := rfl
@[simp] theorem raise_shortFrame_rdHumInt : (raise .shortFrame s).rdHumInt = s.rdHumInt := rfl
@[simp] theorem raise_shortFrame_rdHumFrac : (raise .shortFrame s).rdHumFrac = s.rdHumFrac := rfl
@[simp] theorem raise_shortFrame_rdTmpInt : (raise .shortFrame s).rdTmpInt = s.rdTmpInt := rfl
@[simp] theorem raise_shortFrame_rdTmpFrac : (raise .shortFrame s).rdTmpFrac = s.rdTmpFrac := rfl
@[simp] theorem raise_shortFrame_rdTs : (raise .shortFrame s).rdTs = s.rdTs := rfl
@[simp] theorem raise_shortFrame_rdValid : (raise .shortFrame s).rdValid = s.rdValid := rfl
@[simp] theorem raise_shortFrame_cmdReject : (raise .shortFrame s).cmdReject = s.cmdReject := rfl
@[simp] theorem raise_shortFrame_inputs : (raise .shortFrame s).inputs = s.inputs := rfl
@[simp] theorem raise_shortFrame_draws : (raise .shortFrame s).draws = s.draws := rfl

/-! ## raise_checksum -/

@[simp] theorem raise_checksum_frame : (raise .checksum s).frame = s.frame := rfl
@[simp] theorem raise_checksum_bitCount : (raise .checksum s).bitCount = s.bitCount := rfl
@[simp] theorem raise_checksum_spinCount : (raise .checksum s).spinCount = s.spinCount := rfl
@[simp] theorem raise_checksum_lastLevel : (raise .checksum s).lastLevel = s.lastLevel := rfl
@[simp] theorem raise_checksum_tIndex : (raise .checksum s).tIndex = s.tIndex := rfl
@[simp] theorem raise_checksum_hsCount : (raise .checksum s).hsCount = s.hsCount := rfl
@[simp] theorem raise_checksum_phase : (raise .checksum s).phase = s.phase := rfl
@[simp] theorem raise_checksum_force : (raise .checksum s).force = s.force := rfl
@[simp] theorem raise_checksum_stFresh : (raise .checksum s).stFresh = false := rfl
@[simp] theorem raise_checksum_stShort : (raise .checksum s).stShort = s.stShort := rfl
@[simp] theorem raise_checksum_stCsum : (raise .checksum s).stCsum = true := rfl
@[simp] theorem raise_checksum_stAbort : (raise .checksum s).stAbort = s.stAbort := rfl
@[simp] theorem raise_checksum_lineOe : (raise .checksum s).lineOe = s.lineOe := rfl
@[simp] theorem raise_checksum_lineOut : (raise .checksum s).lineOut = s.lineOut := rfl
@[simp] theorem raise_checksum_rdHumInt : (raise .checksum s).rdHumInt = s.rdHumInt := rfl
@[simp] theorem raise_checksum_rdHumFrac : (raise .checksum s).rdHumFrac = s.rdHumFrac := rfl
@[simp] theorem raise_checksum_rdTmpInt : (raise .checksum s).rdTmpInt = s.rdTmpInt := rfl
@[simp] theorem raise_checksum_rdTmpFrac : (raise .checksum s).rdTmpFrac = s.rdTmpFrac := rfl
@[simp] theorem raise_checksum_rdTs : (raise .checksum s).rdTs = s.rdTs := rfl
@[simp] theorem raise_checksum_rdValid : (raise .checksum s).rdValid = s.rdValid := rfl
@[simp] theorem raise_checksum_cmdReject : (raise .checksum s).cmdReject = s.cmdReject := rfl
@[simp] theorem raise_checksum_inputs : (raise .checksum s).inputs = s.inputs := rfl
@[simp] theorem raise_checksum_draws : (raise .checksum s).draws = s.draws := rfl

/-! ## raise_cmdReject -/

@[simp] theorem raise_cmdReject_frame : (raise .cmdReject s).frame = s.frame := rfl
@[simp] theorem raise_cmdReject_bitCount : (raise .cmdReject s).bitCount = s.bitCount := rfl
@[simp] theorem raise_cmdReject_spinCount : (raise .cmdReject s).spinCount = s.spinCount := rfl
@[simp] theorem raise_cmdReject_lastLevel : (raise .cmdReject s).lastLevel = s.lastLevel := rfl
@[simp] theorem raise_cmdReject_tIndex : (raise .cmdReject s).tIndex = s.tIndex := rfl
@[simp] theorem raise_cmdReject_hsCount : (raise .cmdReject s).hsCount = s.hsCount := rfl
@[simp] theorem raise_cmdReject_phase : (raise .cmdReject s).phase = s.phase := rfl
@[simp] theorem raise_cmdReject_force : (raise .cmdReject s).force = s.force := rfl
@[simp] theorem raise_cmdReject_stFresh : (raise .cmdReject s).stFresh = s.stFresh := rfl
@[simp] theorem raise_cmdReject_stShort : (raise .cmdReject s).stShort = s.stShort := rfl
@[simp] theorem raise_cmdReject_stCsum : (raise .cmdReject s).stCsum = s.stCsum := rfl
@[simp] theorem raise_cmdReject_stAbort : (raise .cmdReject s).stAbort = s.stAbort := rfl
@[simp] theorem raise_cmdReject_lineOe : (raise .cmdReject s).lineOe = s.lineOe := rfl
@[simp] theorem raise_cmdReject_lineOut : (raise .cmdReject s).lineOut = s.lineOut := rfl
@[simp] theorem raise_cmdReject_rdHumInt : (raise .cmdReject s).rdHumInt = s.rdHumInt := rfl
@[simp] theorem raise_cmdReject_rdHumFrac : (raise .cmdReject s).rdHumFrac = s.rdHumFrac := rfl
@[simp] theorem raise_cmdReject_rdTmpInt : (raise .cmdReject s).rdTmpInt = s.rdTmpInt := rfl
@[simp] theorem raise_cmdReject_rdTmpFrac : (raise .cmdReject s).rdTmpFrac = s.rdTmpFrac := rfl
@[simp] theorem raise_cmdReject_rdTs : (raise .cmdReject s).rdTs = s.rdTs := rfl
@[simp] theorem raise_cmdReject_rdValid : (raise .cmdReject s).rdValid = s.rdValid := rfl
@[simp] theorem raise_cmdReject_cmdReject : (raise .cmdReject s).cmdReject = true := rfl
@[simp] theorem raise_cmdReject_inputs : (raise .cmdReject s).inputs = s.inputs := rfl
@[simp] theorem raise_cmdReject_draws : (raise .cmdReject s).draws = s.draws := rfl

end Sys2Proof.Machine
end

