-- ==== Sys2Proof/Laws/Ops.lean ====
section
/-! SUPPORT. One lemma per shared operation: everything it can do. -/

namespace Sys2Proof.Machine

/-! ## Sequencing -/

@[simp] theorem andThen_next (s : State) (f : State → StepOutcome) : andThen (.next s) f = f s := rfl
@[simp] theorem andThen_fault (r : Fault) (f : State → StepOutcome) : andThen (.fault r) f = .fault r := rfl
@[simp] theorem andThen_refused (r : Refusal) (f : State → StepOutcome) : andThen (.refused r) f = .refused r := rfl

/-- A sequence answers a next state exactly when both parts do. -/
theorem andThen_eq_next {o : StepOutcome} {f : State → StepOutcome} {t : State} :
    andThen o f = .next t ↔ ∃ s, o = .next s ∧ f s = .next t := by
  cases o <;> simp

/-- A step that is no reset. -/
theorem step_of_no_reset {s : State} (h : s.port.rst = false) :
    step s = andThen (runOperations s) (fun t => .next t.advance) := by
  simp [step, runStep, h]

/-! ## Runs -/

@[simp] theorem steps_zero (s : State) : steps 0 s = .next s := rfl

/-- The first step of a run. -/
theorem steps_succ (k : Nat) (s : State) : steps (k + 1) s = andThen (step s) (steps k) := rfl

/-- A run in two parts. -/
theorem steps_add (j k : Nat) (s : State) : steps (j + k) s = andThen (steps j s) (steps k) := by
  induction j generalizing s with
  | zero => rw [Nat.zero_add]; rfl
  | succ j ih =>
    rw [Nat.succ_add, steps_succ, steps_succ]
    cases step s with
    | next s' => exact ih s'
    | fault r => rfl
    | refused r => rfl

/-- `steps` is the host's run of the machine. -/
theorem steps_eq_run (k : Nat) (s : State) : steps k s = Host.Core.run Sys2Proof.core k s := by
  induction k generalizing s with
  | zero => rfl
  | succ k ih =>
    have h : ∀ o, Sys2Proof.core.step s = o → andThen o (steps k) = Host.Core.run Sys2Proof.core (k + 1) s := by
      intro o ho
      simp only [Host.Core.run, ho]
      cases o with
      | next t => exact ih t
      | fault r => rfl
      | refused r => rfl
    exact h _ rfl

/-! ## Ports -/

/-- After a step the ports of the next one come. -/
@[simp] theorem advance_portAt (s : State) (k : Nat) : s.advance.portAt k = s.portAt (k + 1) := by
  cases h : s.inputs <;> simp [State.portAt, portFrom, State.advance, h, Nat.add_comm, Nat.add_left_comm]

/-- The ports depend on the model's own two fields only. -/
theorem portAt_congr {s t : State} (hi : s.inputs = t.inputs) (hd : s.draws = t.draws) (k : Nat) :
    s.portAt k = t.portAt k := by
  simp [State.portAt, hi, hd]

/-- The ports in terms of the two fields, for states written out field by field. -/
theorem port_eq (s : State) : s.port = portFrom s.inputs s.draws 0 := rfl

@[simp] theorem port_cons (s : State) (p : PortIn) (ps : List PortIn) :
    ({ s with inputs := p :: ps } : State).port = p := rfl

/-! ## Conditions, verdict, response -/

@[simp] theorem raiseWhen_false (e : ExCond) (s : State) : raiseWhen false e s = s := rfl
@[simp] theorem raiseWhen_true (e : ExCond) (s : State) : raiseWhen true e s = raise e s := rfl

/-- The verdict's flag writes, all at once (42_validator.md R128). -/
theorem writeVerdict_eq (short bad : Bool) (s : State) :
    writeVerdict short bad s = { s with stShort := short, stCsum := bad, stFresh := !short && !bad } := by
  cases short <;> cases bad <;> rfl

/-- The response has two cases (44_session.md R160). -/
theorem respond_cases (ok : Bool) (s : State) :
    (respond ok s = { s with phase := Phase.assemble } ∧ (ok = true ∨ s.force = false)) ∨
    (respond ok s = startAttempt s ∧ ok = false ∧ s.force = true) := by
  unfold respond
  cases ok <;> cases s.force <;> simp

/-! ## Counters -/

theorem writeSpin_of_lt (d : Nat) {n : Nat} (h : n < 256) : writeSpin d n = BitVec.ofNat 8 n := by
  simp [writeSpin, h]

theorem writeTIndex_of_lt (d : Nat) {n : Nat} (h : n < 128) : writeTIndex d n = BitVec.ofNat 7 n := by
  simp [writeTIndex, h]

theorem writeHs_of_lt (d : Nat) {n : Nat} (h : n < 32768) : writeHs d n = BitVec.ofNat 15 n := by
  simp [writeHs, h]

/-! ## Decoder and sampler -/

/-- The byte after an append, as a number (41_decoder.md R115). -/
theorem shiftIn_toNat (old : Byte) (b : Bool) : (shiftIn old b).toNat = (2 * old.toNat + b.toNat) % 256 := by
  revert old b; decide

/-- The bit append stores one byte and counts, or faults where the address is absent (41_decoder.md R115, R116). -/
theorem bitAppend_spec (b : Bool) (m : Memory) (bc : BitVec 6) :
    (bc.toNat < 40 ∧ bitAppend b m bc =
      .ok (Memory.write m (bc.toNat >>> 3) (shiftIn (Memory.read m (bc.toNat >>> 3)) b), bc + 1)) ∨
    (40 ≤ bc.toNat ∧ bitAppend b m bc = .error (.frameAddress (bc.toNat >>> 3))) := by
  have hk : bc.toNat >>> 3 = bc.toNat / 8 := Nat.shiftRight_eq_div_pow _ 3
  by_cases h : bc.toNat < 40
  · left
    have h5 : bc.toNat >>> 3 < 5 := by omega
    simp [bitAppend, memRead, memWrite, h5, h]
  · right
    have h5 : ¬ bc.toNat >>> 3 < 5 := by omega
    simp [bitAppend, memRead, h5]
    omega

/-- A bit append keeps the canonical form. -/
theorem bitAppend_wf {b : Bool} {m m' : Memory} {bc bc' : BitVec 6} (hm : Memory.wf m)
    (h : bitAppend b m bc = .ok (m', bc')) : Memory.wf m' := by
  rcases bitAppend_spec b m bc with ⟨hlt, he⟩ | ⟨-, he⟩
  · rw [he] at h
    cases h
    have hk : bc.toNat >>> 3 = bc.toNat / 8 := Nat.shiftRight_eq_div_pow _ 3
    refine write_wf hm ?_
    change _ < 5
    omega
  · rw [he] at h; cases h

/-- The attempt start keeps the canonical form. -/
theorem startAttempt_wf (s : State) : Memory.wf (startAttempt s).frame := wf_nil

/-- `i & 1 == 0` of 41_decoder.md R117, as a remainder. -/
theorem classified_iff (i : Nat) : classified i = true ↔ 4 ≤ i ∧ i % 2 = 0 := by
  simp [classified, Nat.and_one_is_mod]

/-- The decoder's step appends at classified indices and does nothing elsewhere (41_decoder.md R112, R113, R117). -/
theorem decodeStep_cases (i d : Nat) (m : Memory) (bc : BitVec 6) :
    (classified i = false ∧ decodeStep i d m bc = .ok (m, bc)) ∨
    (classified i = true ∧ decodeStep i d m bc = bitAppend (classify d) m bc) := by
  unfold decodeStep
  cases classified i <;> simp

/-- Everything the transition case can do (40_sampler.md R93, R95). -/
theorem sampleTransition_cases (s : State) :
    (∃ m bc, decodeStep s.tIndex.toNat s.spinCount.toNat s.frame s.bitCount = .ok (m, bc) ∧
      sampleTransition s = .next { s with
        frame := m, bitCount := bc, spinCount := 0, lastLevel := s.port.lineIn,
        tIndex := writeTIndex s.draws (s.tIndex.toNat + 1),
        phase := if s.tIndex.toNat + 1 = 83 then Phase.validate else s.phase }) ∨
    (∃ r, decodeStep s.tIndex.toNat s.spinCount.toNat s.frame s.bitCount = .error r ∧
      sampleTransition s = .fault r) := by
  cases h : decodeStep s.tIndex.toNat s.spinCount.toNat s.frame s.bitCount with
  | ok p => left; exact ⟨p.1, p.2, rfl, by simp [sampleTransition, State.observation, State.lineRead, h, Config.maxTimings]⟩
  | error r => right; exact ⟨r, rfl, by simp [sampleTransition, State.observation, h]⟩

/-- Everything the same-level case can do (40_sampler.md R92, R94). -/
theorem sampleSame_cases (s : State) :
    (s.spinCount.toNat = 254 ∧
      sampleSame s = { s with spinCount := 255, stAbort := true, phase := Phase.validate }) ∨
    (s.spinCount.toNat ≠ 254 ∧ sampleSame s = { s with spinCount := writeSpin s.draws (s.spinCount.toNat + 1) }) := by
  by_cases h : s.spinCount.toNat = 254
  · left; simp [sampleSame, h, writeSpin, Config.sat]
  · right; simp [sampleSame, h, Config.sat]

end Sys2Proof.Machine
end

