-- ==== Sys2Proof/Laws/PerInstr.lean ====
section
/-! SUPPORT. Statements about every operation as syntax, one lemma per constructor. -/

namespace Sys2Proof.Laws.FitsFormat

/-- The operation is well formed and its code fits the width of its encoding (30_encoding.md R72). -/
def Statement (i : Instr) : Prop := i.wellFormed = true ∧ encodeValue i < 2 ^ i.format.width

theorem nop : Statement .nop := ⟨rfl, by decide⟩
theorem rsv1 : Statement .rsv1 := ⟨rfl, by decide⟩
theorem init : Statement .init := ⟨rfl, by decide⟩
theorem rsv3 : Statement .rsv3 := ⟨rfl, by decide⟩
theorem take (f : Bool) : Statement (.take f) := by cases f <;> exact ⟨rfl, by decide⟩
theorem destroy : Statement .destroy := ⟨rfl, by decide⟩
theorem rsv7 : Statement .rsv7 := ⟨rfl, by decide⟩
theorem idleUninit : Statement .idleUninit := ⟨rfl, by decide⟩
theorem idleReady : Statement .idleReady := ⟨rfl, by decide⟩
theorem hsLow : Statement .hsLow := ⟨rfl, by decide⟩
theorem hsHigh : Statement .hsHigh := ⟨rfl, by decide⟩
theorem sample : Statement .sample := ⟨rfl, by decide⟩
theorem validate : Statement .validate := ⟨rfl, by decide⟩
theorem assemble : Statement .assemble := ⟨rfl, by decide⟩
theorem idleFatal : Statement .idleFatal := ⟨rfl, by decide⟩
theorem idleClosed : Statement .idleClosed := ⟨rfl, by decide⟩
theorem rsvPhase9 : Statement .rsvPhase9 := ⟨rfl, by decide⟩
theorem rsvPhase10 : Statement .rsvPhase10 := ⟨rfl, by decide⟩
theorem rsvPhase11 : Statement .rsvPhase11 := ⟨rfl, by decide⟩
theorem rsvPhase12 : Statement .rsvPhase12 := ⟨rfl, by decide⟩
theorem rsvPhase13 : Statement .rsvPhase13 := ⟨rfl, by decide⟩
theorem rsvPhase14 : Statement .rsvPhase14 := ⟨rfl, by decide⟩
theorem rsvPhase15 : Statement .rsvPhase15 := ⟨rfl, by decide⟩

end Sys2Proof.Laws.FitsFormat
end

