-- ==== Sys2Proof/Laws/Step.lean ====
section
/-! SUPPORT. Everything a step can do, said once: what a micro-operation does (`MicroEffect`) and what a step that is no reset
does (`step_effect`). -/

namespace Sys2Proof.Machine

/-! ## The two cases of SAMPLE -/

/-- `SAMPLE` on a sample of the same level. -/
theorem exec_sample_same {s : State} (h : s.port.lineIn = s.lastLevel) : exec .sample s = .next (sampleSame s) := by
  simp [exec, execSample, State.lineRead, h]

/-- `SAMPLE` on a sample of the other level. -/
theorem exec_sample_transition {s : State} (h : s.port.lineIn ≠ s.lastLevel) : exec .sample s = sampleTransition s := by
  simp [exec, execSample, State.lineRead, h]

/-- What the decoder's step has written when it does not fault (41_decoder.md R112 to R117). -/
theorem decodeStep_ok {i d : Nat} {m m' : Memory} {bc bc' : BitVec 6} (h : decodeStep i d m bc = .ok (m', bc')) :
    (¬ (4 ≤ i ∧ i % 2 = 0) ∧ m' = m ∧ bc' = bc) ∨
    ((4 ≤ i ∧ i % 2 = 0) ∧ bc.toNat < 40 ∧ bc' = bc + 1 ∧
      m' = Memory.write m (bc.toNat >>> 3) (shiftIn (Memory.read m (bc.toNat >>> 3)) (classify d))) := by
  rcases decodeStep_cases i d m bc with ⟨hc, he⟩ | ⟨hc, he⟩ <;> rw [he] at h
  · cases h
    refine .inl ⟨?_, rfl, rfl⟩
    rw [← classified_iff, hc]
    simp
  · rcases bitAppend_spec (classify d) m bc with ⟨hb, hk⟩ | ⟨-, hk⟩ <;> rw [hk] at h <;> cases h
    exact .inr ⟨(classified_iff _).1 hc, hb, rfl, rfl⟩

/-! ## Micro-operations -/

/-- What the micro-operation that `phase` selects does to a state, when it does not stop. -/
inductive MicroEffect (s : State) : State → Prop
  | idle (h : s.phase = Phase.uninit ∨ s.phase = Phase.ready ∨ s.phase = Phase.fatal ∨ s.phase = Phase.closed) :
      MicroEffect s s
  | lowHold (h : s.phase = Phase.hsLow) (hc : s.hsCount.toNat + 1 ≠ 18000) :
      MicroEffect s { s with hsCount := writeHs s.draws (s.hsCount.toNat + 1) }
  | lowEnd (h : s.phase = Phase.hsLow) (hc : s.hsCount.toNat + 1 = 18000) :
      MicroEffect s { s with lineOut := Level.high, hsCount := 0, phase := Phase.hsHigh }
  | highHold (h : s.phase = Phase.hsHigh) (hc : s.hsCount.toNat + 1 ≠ 40) :
      MicroEffect s { s with hsCount := writeHs s.draws (s.hsCount.toNat + 1) }
  | highEnd (h : s.phase = Phase.hsHigh) (hc : s.hsCount.toNat + 1 = 40) :
      MicroEffect s { s with lineOe := false, hsCount := 0, phase := Phase.sampling }
  | count (h : s.phase = Phase.sampling) (hl : s.port.lineIn = s.lastLevel) (hc : s.spinCount.toNat ≠ 254) :
      MicroEffect s { s with spinCount := writeSpin s.draws (s.spinCount.toNat + 1) }
  | saturate (h : s.phase = Phase.sampling) (hl : s.port.lineIn = s.lastLevel) (hc : s.spinCount.toNat = 254) :
      MicroEffect s { s with spinCount := 255, stAbort := true, phase := Phase.validate }
  | skip (h : s.phase = Phase.sampling) (hl : s.port.lineIn ≠ s.lastLevel)
      (hc : ¬ (4 ≤ s.tIndex.toNat ∧ s.tIndex.toNat % 2 = 0)) :
      MicroEffect s { s with
        spinCount := 0, lastLevel := s.port.lineIn, tIndex := writeTIndex s.draws (s.tIndex.toNat + 1),
        phase := if s.tIndex.toNat + 1 = 83 then Phase.validate else s.phase }
  | append (h : s.phase = Phase.sampling) (hl : s.port.lineIn ≠ s.lastLevel)
      (hc : 4 ≤ s.tIndex.toNat ∧ s.tIndex.toNat % 2 = 0) (hb : s.bitCount.toNat < 40) :
      MicroEffect s { s with
        frame := Memory.write s.frame (s.bitCount.toNat >>> 3)
          (shiftIn (Memory.read s.frame (s.bitCount.toNat >>> 3)) (classify s.spinCount.toNat)),
        bitCount := s.bitCount + 1,
        spinCount := 0, lastLevel := s.port.lineIn, tIndex := writeTIndex s.draws (s.tIndex.toNat + 1),
        phase := if s.tIndex.toNat + 1 = 83 then Phase.validate else s.phase }
  | accept (h : s.phase = Phase.validate)
      (hc : (s.shortFrame = false ∧ s.badChecksum = false) ∨ s.force = false) :
      MicroEffect s { s with
        stShort := s.shortFrame, stCsum := s.badChecksum, stFresh := !s.shortFrame && !s.badChecksum,
        phase := Phase.assemble }
  | retry (h : s.phase = Phase.validate) (hc : s.shortFrame = true ∨ s.badChecksum = true) (hf : s.force = true) :
      MicroEffect s (startAttempt { s with stShort := s.shortFrame, stCsum := s.badChecksum, stFresh := false })
  | assemble (h : s.phase = Phase.assemble) :
      MicroEffect s { s with
        rdHumInt := Memory.read s.frame 0, rdHumFrac := Memory.read s.frame 1,
        rdTmpInt := Memory.read s.frame 2, rdTmpFrac := Memory.read s.frame 3,
        rdTs := s.port.timeIn, rdValid := true, phase := Phase.ready }

/-- A phase code is one of the nine of 30_encoding.md R64 or one of the reserved ones of R65. -/
theorem phase_cases (p : PhaseCode) :
    p = Phase.uninit ∨ p = Phase.ready ∨ p = Phase.hsLow ∨ p = Phase.hsHigh ∨ p = Phase.sampling ∨ p = Phase.validate ∨
    p = Phase.assemble ∨ p = Phase.fatal ∨ p = Phase.closed ∨ 9 ≤ p.toNat := by
  revert p; decide

/-- A reserved phase code stops the model (30_encoding.md R65). -/
theorem exec_reservedPhase {p : PhaseCode} (h : 9 ≤ p.toNat) (s : State) :
    exec (decodePhase p) s = .fault (.reservedPhase p) := by
  have hp : p = 9#4 ∨ p = 10#4 ∨ p = 11#4 ∨ p = 12#4 ∨ p = 13#4 ∨ p = 14#4 ∨ p = 15#4 := by revert p; decide
  rcases hp with rfl | rfl | rfl | rfl | rfl | rfl | rfl <;> rfl

/-- `VALIDATE` in its own phase has two outcomes (42_validator.md R128, 44_session.md R160). -/
theorem execValidate_effect {s u : State} (hp : s.phase = Phase.validate) (hu : exec .validate s = .next u) :
    MicroEffect s u := by
  simp only [exec, execValidate, writeVerdict_eq, Host.Outcome.next.injEq] at hu
  subst hu
  by_cases hc : (s.shortFrame = false ∧ s.badChecksum = false) ∨ s.force = false
  · convert MicroEffect.accept hp hc using 1
    rcases hc with ⟨h1, h2⟩ | h <;> simp [respond, *]
  · have hf : s.force = true := by cases h : s.force <;> simp_all
    have hv : s.shortFrame = true ∨ s.badChecksum = true := by
      cases h1 : s.shortFrame <;> cases h2 : s.badChecksum <;> simp_all
    convert MicroEffect.retry hp hv hf using 1
    rcases hv with h | h <;> simp [respond, h, hf]

/-- Everything that the micro-operation of a state's phase can do. -/
theorem micro_effect {s u : State} (hu : exec (decodePhase s.phase) s = .next u) : MicroEffect s u := by
  rcases phase_cases s.phase with h | h | h | h | h | h | h | h | h | h
  · rw [h] at hu; cases hu; exact .idle (by simp [h])
  · rw [h] at hu; cases hu; exact .idle (by simp [h])
  · rw [h] at hu
    simp only [decodePhase, exec, execHsLow, Config.hsLowTicks] at hu
    by_cases hc : s.hsCount.toNat + 1 = 18000
    · simp only [hc, if_true] at hu; cases hu; exact .lowEnd h hc
    · simp only [hc, if_false] at hu; cases hu; exact .lowHold h hc
  · rw [h] at hu
    simp only [decodePhase, exec, execHsHigh, Config.hsHighTicks] at hu
    by_cases hc : s.hsCount.toNat + 1 = 40
    · simp only [hc, if_true] at hu; cases hu; exact .highEnd h hc
    · simp only [hc, if_false] at hu; cases hu; exact .highHold h hc
  · rw [h] at hu
    change exec .sample s = _ at hu
    by_cases hl : s.port.lineIn = s.lastLevel
    · rw [exec_sample_same hl] at hu
      cases hu
      rcases sampleSame_cases s with ⟨hc, he⟩ | ⟨hc, he⟩ <;> rw [he]
      · exact .saturate h hl hc
      · exact .count h hl hc
    · rw [exec_sample_transition hl] at hu
      rcases sampleTransition_cases s with ⟨m, bc, hd, he⟩ | ⟨r, -, he⟩ <;> rw [he] at hu <;> cases hu
      rcases decodeStep_ok hd with ⟨hc, rfl, rfl⟩ | ⟨hc, hb, rfl, rfl⟩
      · exact .skip h hl hc
      · exact .append h hl hc hb
  · rw [h] at hu; exact execValidate_effect h hu
  · rw [h] at hu; cases hu; exact .assemble h
  · rw [h] at hu; cases hu; exact .idle (by simp [h])
  · rw [h] at hu; cases hu; exact .idle (by simp [h])
  · rw [exec_reservedPhase h] at hu; cases hu

/-! ## Steps -/

/-- The command of this step is one that its phase accepts (44_session.md R151). -/
def State.accepts (s : State) : Prop :=
  (s.command = 0b010#3 ∧ s.phase = Phase.uninit) ∨
  ((s.command = 0b100#3 ∨ s.command = 0b101#3 ∨ s.command = 0b110#3) ∧ s.phase = Phase.ready)

/-- The state in which the micro-operation runs when no command is accepted: pulses written, nothing else. -/
def State.polled (s : State) : State :=
  { s with rdValid := false, cmdReject := decide (s.command ≠ 0b000#3) }

/-- The command words are eight. -/
theorem command_cases (c : CmdWord) :
    c = 0#3 ∨ c = 1#3 ∨ c = 2#3 ∨ c = 3#3 ∨ c = 4#3 ∨ c = 5#3 ∨ c = 6#3 ∨ c = 7#3 := by
  revert c; decide

/-- A command that is not accepted leaves the pulses only. -/
theorem exec_command_refused {s : State} (h : ¬ s.accepts) :
    exec (decodeCmd s.command) s.clearPulses = .next s.polled := by
  simp only [State.accepts, not_or, not_and] at h
  rcases command_cases s.command with hc | hc | hc | hc | hc | hc | hc | hc <;> unfold State.polled <;> rw [hc]
  · rfl
  · rfl
  · have hp : s.clearPulses.phase ≠ Phase.uninit := h.1 hc
    change execInit _ = _
    rw [execInit, if_neg hp]; rfl
  · rfl
  · have hp : s.clearPulses.phase ≠ Phase.ready := h.2 (.inl hc)
    change execTake false _ = _
    rw [execTake, if_neg hp]; rfl
  · have hp : s.clearPulses.phase ≠ Phase.ready := h.2 (.inr (.inl hc))
    change execTake true _ = _
    rw [execTake, if_neg hp]; rfl
  · have hp : s.clearPulses.phase ≠ Phase.ready := h.2 (.inr (.inr hc))
    change execDestroy _ = _
    rw [execDestroy, if_neg hp]; rfl
  · rfl

/-- A step in which no command is accepted runs the micro-operation of its phase. -/
theorem step_of_not_accepts {s : State} (hr : s.port.rst = false) (h : ¬ s.accepts) :
    step s = andThen (exec (decodePhase s.phase) s.polled) (fun t => .next t.advance) := by
  rw [step_of_no_reset hr, runOperations, exec_command_refused h]; rfl

/-- A step that is a reset. -/
theorem step_of_reset {s : State} (h : s.port.rst = true) :
    step s = .next { State.reset with inputs := s.inputs.tail, draws := s.draws + 1 } := by
  rw [step, runStep, if_pos h]; rfl

/-- Everything that a step which is no reset can do. -/
theorem step_effect {s t : State} (hr : s.port.rst = false) (hs : step s = .next t) :
    (s.command = 0b010#3 ∧ s.phase = Phase.uninit ∧
      t = ({ s.clearPulses with phase := if s.port.initOk then Phase.ready else Phase.fatal } : State).advance) ∨
    (∃ f : Bool, s.command = 0b10#2 ++ BitVec.ofBool f ∧ s.phase = Phase.ready ∧
      t = (startAttempt { s.clearPulses with force := f }).advance) ∨
    (s.command = 0b110#3 ∧ s.phase = Phase.ready ∧
      t = ({ s.clearPulses with phase := Phase.closed, lineOe := false } : State).advance) ∨
    (¬ s.accepts ∧ ∃ u, MicroEffect s.polled u ∧ t = u.advance) := by
  by_cases ha : s.accepts
  · rw [step_of_no_reset hr, runOperations] at hs
    rcases ha with ⟨hc, hp⟩ | ⟨hc | hc | hc, hp⟩ <;> rw [hc, hp] at hs
    · refine .inl ⟨hc, hp, ?_⟩
      change andThen (andThen (execInit _) execIdleUninit) _ = _ at hs
      have hp' : s.clearPulses.phase = Phase.uninit := hp
      rw [execInit, if_pos hp'] at hs
      have ho : s.clearPulses.initOk = s.port.initOk := rfl
      rw [ho] at hs
      cases hi : s.port.initOk <;> rw [hi] at hs <;> cases hs <;> rfl
    · refine .inr (.inl ⟨false, hc, hp, ?_⟩)
      change andThen (andThen (execTake false _) execIdleReady) _ = _ at hs
      have hp' : s.clearPulses.phase = Phase.ready := hp
      rw [execTake, if_pos hp'] at hs
      cases hs; rfl
    · refine .inr (.inl ⟨true, hc, hp, ?_⟩)
      change andThen (andThen (execTake true _) execIdleReady) _ = _ at hs
      have hp' : s.clearPulses.phase = Phase.ready := hp
      rw [execTake, if_pos hp'] at hs
      cases hs; rfl
    · refine .inr (.inr (.inl ⟨hc, hp, ?_⟩))
      change andThen (andThen (execDestroy _) execIdleReady) _ = _ at hs
      have hp' : s.clearPulses.phase = Phase.ready := hp
      rw [execDestroy, if_pos hp'] at hs
      cases hs; rfl
  · rw [step_of_not_accepts hr ha, andThen_eq_next] at hs
    obtain ⟨u, hu, ht⟩ := hs
    cases ht
    exact .inr (.inr (.inr ⟨ha, u, micro_effect (s := s.polled) hu, rfl⟩))

/-! ## Runs -/

/-- The last step of a run. -/
theorem steps_last (k : Nat) (s : State) : steps (k + 1) s = andThen (steps k s) step := by
  have one : ∀ t, steps 1 t = step t := fun t => by rw [steps_succ]; cases step t <;> rfl
  rw [steps_add]
  congr 1
  funext t
  exact one t

end Sys2Proof.Machine
end

