-- ==== Sys2Proof/Machine/Bench.lean ====
section
/-! DEFINITION. The stimulus notation of the test programs (30_encoding.md R73), run over `step`. -/

namespace Sys2Proof.Machine

/-- A block under a stimulus: its state, the queue of line levels, the number of steps taken, and whether `TIME = step`
has been given (R73). -/
structure Bench where
  st : State
  line : List Level
  stepNo : Nat
  timed : Bool
  deriving DecidableEq, Repr

/-- Why a stimulus ends early. -/
inductive BenchStop where
  | fault (r : Fault)
  | refused (r : Refusal)
  /-- The bound on the steps of a `RUN` was met before `READY`. -/
  | unfinished
  /-- `RSV n` with an `n` that names no reserved word. -/
  | illFormed
  deriving DecidableEq, Repr

/-- The bench after reset: steps are numbered from 1, no line level is queued, `time_in` is free. -/
def Bench.reset : Bench := ⟨State.reset, [], 0, false⟩

/-- `time_in` in step number `n`, where `TIME = step` has been given or not (R73): the step's number, and free before.
R73 does not say what a number that does not fit `TS_WIDTH` bits leaves on the port. DESIGN CHOICE (safe): a free value, see
log 19. -/
def benchTime (timed : Bool) (n : Nat) : BitVec Config.tsWidth :=
  if timed ∧ n < 2 ^ Config.tsWidth then BitVec.ofNat _ n else Config.freeTimeIn n

/-- One step with a command word presented, or none. The queue is consumed one level per `SAMPLING` step; in every other step
`line_in` is don't care, here free, as it is when the queue has run out. The port `time_in` holds `benchTime`
of the step's number, counted from 1 (R73, log 19). -/
def Bench.tick (c : Option CmdWord) (ok : Bool) (b : Bench) : Except BenchStop Bench :=
  let sampling := b.st.phase == Phase.sampling
  let free := Config.freeLineIn b.stepNo
  let p : PortIn :=
    { rst := false, cmdValid := c.isSome, cmd := c.getD 0, initOk := ok,
      lineIn := if sampling then b.line.headD free else free,
      timeIn := benchTime b.timed (b.stepNo + 1) }
  match step { b.st with inputs := p :: b.st.inputs } with
  | .next t => .ok ⟨t, if sampling then b.line.tail else b.line, b.stepNo + 1, b.timed⟩
  | .fault r => .error (.fault r)
  | .refused r => .error (.refused r)

/-- `WAIT n`: `n` consecutive `NOP` steps (R73). -/
def Bench.wait : Nat → Bench → Except BenchStop Bench
  | 0, b => .ok b
  | n + 1, b =>
    match b.tick none false with
    | .ok b' => Bench.wait n b'
    | .error e => .error e

/-- `RUN`: `NOP` steps until one ends with `phase == READY` (R73), at most `fuel` of them. -/
def Bench.untilReady : Nat → Bench → Except BenchStop Bench
  | 0, _ => .error .unfinished
  | n + 1, b =>
    match b.tick none false with
    | .ok b' => if b'.st.phase = Phase.ready then .ok b' else Bench.untilReady n b'
    | .error e => .error e

/-- One line of the notation (R73); `fuel` bounds a `RUN`. -/
def Bench.item (fuel : Nat) (i : Stimulus) (b : Bench) : Except BenchStop Bench :=
  match i with
  | .nop => b.tick none false
  | .init ok => b.tick (some 0b010#3) ok
  | .take f => b.tick (some (if f then 0b101#3 else 0b100#3)) false
  | .destroy => b.tick (some 0b110#3) false
  | .rsv n => if reservedCmd n then b.tick (some (BitVec.ofNat 3 n)) false else .error .illFormed
  | .line segs => .ok { b with line := b.line ++ segs.flatMap (fun g => List.replicate g.count g.level) }
  | .timeStep => .ok { b with timed := true }
  | .wait n => b.wait n
  | .run => b.untilReady fuel

/-- A test program (R73). -/
def Bench.program (fuel : Nat) : List Stimulus → Bench → Except BenchStop Bench
  | [], b => .ok b
  | i :: is, b =>
    match b.item fuel i with
    | .ok b' => Bench.program fuel is b'
    | .error e => .error e

end Sys2Proof.Machine
end

