-- ==== Sys2Proof/Tests/Slice0.lean ====
section
/-! SUPPORT. Tests, each expected result read from the spec, and the witnesses of the statements' hypotheses. -/

namespace Sys2Proof.Tests

open Sys2Proof Sys2Proof.Machine

/-! ## Helpers -/

/-- The ports of a step: a command or none, the line's level. -/
def pin (c : Option CmdWord) (line : Level) : PortIn :=
  ⟨false, c.isSome, c.getD 0, true, line, 21983⟩

/-- A state right after reset but for its phase and the ports to come. -/
def st (p : PhaseCode) (ps : List PortIn) : State := { State.reset with phase := p, inputs := ps }

/-- The ports of one step with no command and the line high. -/
def quiet : List PortIn := [pin none true]

/-- One value of the state after an outcome, if there is one. -/
def after {α : Type} (o : StepOutcome) (f : State → α) : Option α :=
  match o with
  | .next t => some (f t)
  | .fault _ => none
  | .refused _ => none

/-- A frame from its five bytes. -/
def frameOf (f0 f1 f2 f3 f4 : Byte) : Memory :=
  Memory.write (Memory.write (Memory.write (Memory.write (Memory.write [] 0 f0) 1 f1) 2 f2) 3 f3) 4 f4

/-- The frame of 43_assembler.md R144's worked example. -/
def goodFrame : Memory := frameOf 45 7 22 3 77

/-! ## Decoding (30_encoding.md R61, R64, R65; spec/opcode_table.json) -/

theorem test_decode_commands :
    decode .cmd [0b00000000#8] = .ok (.nop, []) ∧ decode .cmd [0b00000001#8] = .ok (.rsv1, []) ∧
    decode .cmd [0b00000010#8] = .ok (.init, []) ∧ decode .cmd [0b00000011#8] = .ok (.rsv3, []) ∧
    decode .cmd [0b00000100#8] = .ok (.take false, []) ∧ decode .cmd [0b00000101#8] = .ok (.take true, []) ∧
    decode .cmd [0b00000110#8] = .ok (.destroy, []) ∧ decode .cmd [0b00000111#8] = .ok (.rsv7, []) := by decide

theorem test_decode_phases :
    decode .phase [0b00000000#8] = .ok (.idleUninit, []) ∧ decode .phase [0b00000001#8] = .ok (.idleReady, []) ∧
    decode .phase [0b00000010#8] = .ok (.hsLow, []) ∧ decode .phase [0b00000011#8] = .ok (.hsHigh, []) ∧
    decode .phase [0b00000100#8] = .ok (.sample, []) ∧ decode .phase [0b00000101#8] = .ok (.validate, []) ∧
    decode .phase [0b00000110#8] = .ok (.assemble, []) ∧ decode .phase [0b00000111#8] = .ok (.idleFatal, []) ∧
    decode .phase [0b00001000#8] = .ok (.idleClosed, []) := by decide

theorem test_decode_reserved_phases :
    decode .phase [0b00001001#8] = .ok (.rsvPhase9, []) ∧ decode .phase [0b00001010#8] = .ok (.rsvPhase10, []) ∧
    decode .phase [0b00001011#8] = .ok (.rsvPhase11, []) ∧ decode .phase [0b00001100#8] = .ok (.rsvPhase12, []) ∧
    decode .phase [0b00001101#8] = .ok (.rsvPhase13, []) ∧ decode .phase [0b00001110#8] = .ok (.rsvPhase14, []) ∧
    decode .phase [0b00001111#8] = .ok (.rsvPhase15, []) := by decide

theorem test_decode_refuses_wide_words :
    decode .cmd [0b00001000#8] = .error .tooWide ∧ decode .phase [0b00010000#8] = .error .tooWide ∧
    decode .cmd [] = .error .noByte := by decide

theorem test_opcode_table_commands :
    ∀ w < 8, (cmdRows.filter (fun r => r.covers w)).map (fun r => r.mnemonic) = [(decodeCmd (BitVec.ofNat 3 w)).mnemonic] := by
  decide

theorem test_opcode_table_phases :
    ∀ w < 16, (phaseRows.filter (fun r => r.covers w)).map (fun r => r.mnemonic) = [(decodePhase (BitVec.ofNat 4 w)).mnemonic] := by
  decide

theorem test_table_words :
    decodeTableWord 3 0b101 = some (.take true) ∧ decodeTableWord 4 0b0101 = some .validate ∧
    decodeTableWord 8 0b110 = some .destroy ∧ decodeTableWord 8 0b1000 = some .idleClosed ∧
    decodeTableWord 8 0b1111 = some .rsvPhase15 ∧ decodeTableWord 3 0b1000 = none ∧ decodeTableWord 8 0b10000 = none := by
  decide

/-! ## Well-formedness: `RSV n` names a reserved word (30_encoding.md R63, R73) -/

theorem test_rsv_names_a_reserved_word :
    Stimulus.wellFormed (.rsv 0b001) = true ∧ Stimulus.wellFormed (.rsv 0b011) = true ∧
    Stimulus.wellFormed (.rsv 0b111) = true ∧ Stimulus.wellFormed (.rsv 0b000) = false ∧
    Stimulus.wellFormed (.rsv 0b010) = false ∧ Stimulus.wellFormed (.rsv 0b100) = false ∧
    Stimulus.wellFormed (.rsv 8) = false := by decide

/-! ## Memory (20_memory.md R40, R42) -/

theorem test_write_keeps_the_form :
    frameOf 0 7 0 3 0 = [(1, 7), (3, 3)] ∧ Memory.write (frameOf 0 7 0 3 0) 1 0 = [(3, 3)] ∧
    memRead goodFrame 5 = .error (.frameAddress 5) ∧ memRead goodFrame 4 = .ok 77 := by decide

/-! ## Commands (44_session.md R152 to R155, 95_test_vectors.md T1, T3, P5, P6, P7) -/

theorem test_nop_waits : after (step (st Phase.ready [pin (some 0b000) true]))
    (fun t => (t.phase, t.cmdReject)) = some (Phase.ready, false) := by decide

theorem test_reserved_words_are_refused :
    [0b001#3, 0b011#3, 0b111#3].map (fun c => after (step (st Phase.ready [pin (some c) true]))
      (fun t => (t.phase, t.cmdReject, t.statusO))) =
    List.replicate 3 (some (Phase.ready, true, 0b00000001#8)) := by decide

theorem test_init_ok : after (step (st Phase.uninit [pin (some 0b010) true]))
    (fun t => (t.phase, t.statusO, t.cmdReject)) = some (Phase.ready, 0b00000001#8, false) := by decide

theorem test_init_fail : after (step (st Phase.uninit [⟨false, true, 0b010, false, true, 0⟩]))
    (fun t => (t.phase, t.statusO, t.cmdReject)) = some (Phase.fatal, 0b01000000#8, false) := by decide

theorem test_init_refused_when_ready : after (step (st Phase.ready [pin (some 0b010) true]))
    (fun t => (t.phase, t.cmdReject)) = some (Phase.ready, true) := by decide

theorem test_take_starts_an_attempt :
    after (step { st Phase.ready [pin (some 0b101) true] with
        frame := goodFrame, bitCount := 40, tIndex := 83, lastLevel := false, stFresh := true, stAbort := true })
      (fun t => ((t.phase, t.force, t.lineOe, t.lineOut), (t.frameBytes, t.stAbort, t.statusO))) =
    some ((Phase.hsLow, true, true, false), ([0, 0, 0, 0, 0], false, 0b00000110#8)) := by decide

theorem test_take_refused_while_busy :
    after (step { st Phase.hsLow [pin (some 0b101) true] with lineOe := true, lineOut := false })
      (fun t => (t.phase, t.force, t.hsCount, t.cmdReject)) = some (Phase.hsLow, false, 1#15, true) := by decide

theorem test_destroy : after (step (st Phase.ready [pin (some 0b110) true]))
    (fun t => (t.phase, t.lineOe, t.statusO)) = some (Phase.closed, false, 0b10000000#8) := by decide

theorem test_destroy_refused_when_uninit : after (step (st Phase.uninit [pin (some 0b110) true]))
    (fun t => (t.phase, t.cmdReject)) = some (Phase.uninit, true) := by decide

/-! ## Idle phases (44_session.md R164 to R166) -/

theorem test_idle_phases :
    [Phase.uninit, Phase.ready, Phase.fatal, Phase.closed].map (fun p => after (step (st p quiet))
      (fun t => (t.phase, t.statusO))) =
    [some (Phase.uninit, 0b00000000#8), some (Phase.ready, 0b00000001#8), some (Phase.fatal, 0b01000000#8),
      some (Phase.closed, 0b10000000#8)] := by decide

/-! ## The handshake (44_session.md R157, R158; 95_test_vectors.md T1) -/

theorem test_low_hold_ends :
    after (step { st Phase.hsLow quiet with hsCount := 17999, lineOe := true, lineOut := false })
      (fun t => (t.phase, t.lineOe, t.lineOut, t.hsCount)) = some (Phase.hsHigh, true, true, 0#15) := by decide

theorem test_low_hold_goes_on :
    after (step { st Phase.hsLow quiet with hsCount := 17998, lineOe := true, lineOut := false })
      (fun t => (t.phase, t.lineOut, t.hsCount)) = some (Phase.hsLow, false, 17999#15) := by decide

theorem test_high_hold_ends :
    after (step { st Phase.hsHigh quiet with hsCount := 39, lineOe := true })
      (fun t => (t.phase, t.lineOe, t.lineOut, t.hsCount)) = some (Phase.sampling, false, true, 0#15) := by decide

theorem test_high_hold_goes_on :
    after (step { st Phase.hsHigh quiet with hsCount := 38, lineOe := true })
      (fun t => (t.phase, t.lineOe, t.hsCount)) = some (Phase.hsHigh, true, 39#15) := by decide

/-! ## The sampler and the decoder (40_sampler.md R91 to R95, 41_decoder.md R115; 95_test_vectors.md S1, D2 to D6) -/

theorem test_sample_observation :
    after (step { st Phase.sampling [pin none false] with spinCount := 26, tIndex := 4 })
      (fun t => (t.spinCount, t.lastLevel, t.tIndex, t.bitCount, t.phase)) =
    some (0#8, false, 5#7, 1#6, Phase.sampling) := by decide

theorem test_sample_aborts_at_255 :
    after (step { st Phase.sampling [pin none true] with spinCount := 254 })
      (fun t => (t.spinCount, t.stAbort, t.phase, t.tIndex)) = some (255#8, true, Phase.validate, 0#7) := by decide

theorem test_last_bit_ends_the_pass :
    after (step { st Phase.sampling [pin none false] with
        tIndex := 82, bitCount := 39, spinCount := 69, frame := frameOf 45 7 22 3 38 })
      (fun t => (t.frameBytes, t.bitCount, t.tIndex, t.phase, t.stAbort)) =
    some ([45, 7, 22, 3, 77], 40#6, 83#7, Phase.validate, false) := by decide

theorem test_append_completes_byte_0 :
    bitAppend true (frameOf 0b0010110 0 0 0 0) 7 = .ok (frameOf 45 0 0 0 0, 8) := by decide

/-- The vector S1. -/
theorem test_pass_S1 :
    samplePass (List.replicate 3 true ++ List.replicate 2 false ++ [true] ++ List.replicate 301 false) =
      some ⟨[⟨3, false⟩, ⟨1, true⟩, ⟨0, false⟩], true, 262⟩ := by decide +kernel

/-- The vectors D2, D3 and D4, and the threshold. -/
theorem test_decode_vectors :
    decodeObs ([10, 79, 79, 49, 30, 49, 31, 49, 0, 49, 254, 49].map (fun d => ⟨d, true⟩)) = some ([5, 0, 0, 0, 0], 4) ∧
    decodeObs ([254, 254, 254, 254].map (fun d => ⟨d, true⟩)) = some ([0, 0, 0, 0, 0], 0) ∧
    decodeObs ([10, 79, 79, 49, 31, 254, 30, 254, 31].map (fun d => ⟨d, true⟩)) = some ([5, 0, 0, 0, 0], 3) ∧
    classify 30 = false ∧ classify 31 = true := by decide

/-! ## The validator (42_validator.md R126 to R128, 44_session.md R160; 95_test_vectors.md V1 to V10) -/

theorem test_verdict_vectors :
    valid 45 7 22 3 77 40 = true ∧ valid 45 7 22 3 77 39 = false ∧ valid 45 7 22 3 78 40 = false ∧
    valid 255 255 255 255 252 40 = true ∧ valid 0 0 0 0 0 0 = false ∧ valid 128 128 0 0 0 40 = true ∧
    valid 1 2 3 4 10 41 = true ∧ accumulate 200 100 0 0 = 44 := by decide

theorem test_validate_retries :
    after (step { st Phase.validate quiet with
        frame := frameOf 45 7 22 3 78, bitCount := 40, tIndex := 83, force := true })
      (fun t => ((t.stShort, t.stCsum, t.stFresh), (t.frameBytes, t.bitCount, t.phase, t.statusO))) =
    some ((false, true, false), ([0, 0, 0, 0, 0], 0#6, Phase.hsLow, 0b00100010#8)) := by decide

theorem test_validate_best_effort :
    after (step { st Phase.validate quiet with
        frame := frameOf 165 15 0 0 0, bitCount := 12, tIndex := 27, spinCount := 255, stAbort := true })
      (fun t => ((t.stShort, t.stCsum, t.stFresh, t.stAbort), (t.phase, t.frameBytes))) =
    some ((true, true, false, true), (Phase.assemble, [165, 15, 0, 0, 0])) := by decide

/-! ## The assembler (43_assembler.md R137, R144; 95_test_vectors.md F1 to F15, P1) -/

theorem test_assemble :
    after (step { st Phase.assemble quiet with frame := goodFrame, bitCount := 40, tIndex := 83, stFresh := true })
      (fun t => ((t.recordO, t.rdTs, t.rdValid), (t.phase, t.statusO, t.frameO))) =
    some ((0x2D071603#32, 21983#Config.tsWidth, true), (Phase.ready, 0b00000101#8, 0x2D0716034D#40)) := rfl

theorem test_decimal_strings :
    decStr 45 7 = "45.7".toList ∧ decStr 0 0 = "0.0".toList ∧ decStr 45 70 = "45.70".toList ∧
    decStr 255 255 = "255.255".toList := by decide

theorem test_decimal_values :
    decVal 45 7 = 457 / 10 ∧ decVal 22 3 = 223 / 10 ∧ decVal 45 70 = 457 / 10 ∧ decVal 45 255 = 9051 / 200 := by
  simp [decVal, nd]
  norm_num

/-- The constant parts of the record, in order (30_encoding.md R71). -/
theorem test_record_parts :
    State.reset.reading.name = "dht11" ∧
    State.reset.reading.fields.map (fun d => (d.name, d.tag)) =
      [("Humidity", TypeTag.floatingPoint), ("Temperature", TypeTag.floatingPoint)] := by decide

/-! ## Reserved phase codes and reset (30_encoding.md R65, 70_reset_and_hazards.md R200) -/

theorem test_reserved_phases_fault :
    [9#4, 10#4, 11#4, 12#4, 13#4, 14#4, 15#4].map (fun p => step (st p quiet)) =
      [9#4, 10#4, 11#4, 12#4, 13#4, 14#4, 15#4].map (fun p => .fault (.reservedPhase p)) := rfl

theorem test_reset_from_a_reserved_phase :
    step (st 12 [⟨true, true, 0b001, true, true, 0⟩]) = .next { State.reset with draws := 1 } := rfl

/-! ## The notation (30_encoding.md R73): program P7 -/

theorem test_program_P7 :
    ((Bench.program 0 [.timeStep, .init true, .destroy, .init true, .take false] Bench.reset).toOption.map
      (fun b => (b.st.phase, b.st.lineOe, b.st.cmdReject, b.stepNo))) = some (Phase.closed, false, true, 4) := by decide

/-- `TIME = step`: in a step whose number fits `TS_WIDTH` bits the port holds that number (R73). -/
theorem test_time_is_the_step_number (n : Nat) (h : n < 2 ^ Config.tsWidth) : (benchTime true n).toNat = n := by
  simp [benchTime, h, Nat.mod_eq_of_lt]

/-! ## Witnesses: states and operands that meet the hypotheses of the statements -/

/-- Ports that are listed are read in their order. -/
theorem portAt_replicate {s : State} {n i : Nat} {p : PortIn} (h : s.inputs = List.replicate n p) (hi : i < n) :
    s.portAt i = p := by
  simp [State.portAt, portFrom, h, hi]

/-- The invariant does not depend on the ports to come. -/
theorem inv_inputs {s : State} (h : s.Inv) (ps : List PortIn) : ({ s with inputs := ps } : State).Inv :=
  ⟨⟨h.r30.1, h.r30.2, h.r30.3, h.r30.4, h.r30.5, h.r30.6, h.r30.7, h.r30.8⟩,
    ⟨h.r31.1, h.r31.2, h.r31.3, h.r31.4, h.r31.5, h.r31.6⟩,
    ⟨h.phases.1, h.phases.2, h.phases.3, h.phases.4, h.phases.5⟩⟩

/-- The four idle states after reset have the invariant. -/
theorem inv_idle {p : PhaseCode} (h : p = Phase.uninit ∨ p = Phase.ready ∨ p = Phase.fatal ∨ p = Phase.closed)
    (ps : List PortIn) : (st p ps).Inv := by
  suffices hi : (st p []).Inv from inv_inputs hi ps
  rcases h with rfl | rfl | rfl | rfl <;>
    exact ⟨⟨by decide, by decide, by decide, by decide, by decide, by decide, by decide, by decide⟩,
      ⟨by decide, by decide, by decide, by decide, fun _ _ => rfl, by decide⟩,
      ⟨wf_nil, by decide, by decide, by decide, by decide⟩⟩

/-- A pass that is one sample before its timeout. -/
def nearTimeout (ps : List PortIn) : State := { st Phase.sampling ps with spinCount := 254 }

theorem inv_nearTimeout (ps : List PortIn) : (nearTimeout ps).Inv := by
  suffices hi : (nearTimeout []).Inv from inv_inputs hi ps
  exact ⟨⟨by decide, by decide, by decide, by decide, by decide, by decide, by decide, by decide⟩,
    ⟨by decide, by decide, by decide, by decide, fun _ _ => rfl, by decide⟩,
    ⟨wf_nil, by decide, by decide, by decide, by decide⟩⟩

/-- After a timeout. -/
def timedOut (ps : List PortIn) : State := { st Phase.validate ps with spinCount := 255, stAbort := true }

theorem inv_timedOut (ps : List PortIn) : (timedOut ps).Inv := by
  suffices hi : (timedOut []).Inv from inv_inputs hi ps
  exact ⟨⟨by decide, by decide, by decide, by decide, by decide, by decide, by decide, by decide⟩,
    ⟨by decide, by decide, by decide, by decide, fun _ _ => rfl, by decide⟩,
    ⟨wf_nil, by decide, by decide, by decide, by decide⟩⟩

theorem witness_DecodeOfEncodeIsTheOperation :
    Instr.wellFormed (.take true) = true ∧ Instr.wellFormed .rsv7 = true ∧ Instr.wellFormed .rsvPhase15 = true := by decide

theorem witness_EveryWordHasOneMeaning :
    decode .cmd [7#8, 9#8] = .ok (.rsv7, [9#8]) ∧ decode .phase [15#8] = .ok (.rsvPhase15, []) ∧
    2 ^ Format.cmd.width ≤ (8#8).toNat ∧ 2 ^ Format.phase.width ≤ (16#8).toNat := by decide

theorem witness_CommandMapIsComplete :
    (st Phase.ready [pin (some 0b111) true]).port.cmdValid = true ∧ (st Phase.ready quiet).port.cmdValid = false := by decide

theorem witness_PhaseSelectsTheMicroOperation :
    (st Phase.closed quiet).port.rst = false ∧
    exec (decodeCmd (st Phase.closed quiet).command) (st Phase.closed quiet).clearPulses = .next (st Phase.closed quiet) :=
  ⟨by decide, rfl⟩

theorem witness_StepRunsTheDecodedOperations :
    (st Phase.sampling [pin (some 0b110) true]).port.rst = false ∧
    decode .cmd [(st Phase.sampling [pin (some 0b110) true]).command.setWidth 8] = .ok (.destroy, []) ∧
    decode .phase [(st Phase.sampling [pin (some 0b110) true]).phase.setWidth 8] = .ok (.sample, []) := by decide

theorem witness_FetchWordIsRunByTheNextStep :
    decodeTableWord 8 7 = some .rsv7 ∧ Instr.format .rsv7 = .cmd ∧ decodeTableWord 8 8 = some .idleClosed ∧
    Instr.format .idleClosed = .phase ∧ decodeTableWord 4 15 = some .rsvPhase15 ∧ decodeTableWord 3 0 = some .nop := by decide

theorem witness_WholeStepFunction :
    (st Phase.ready [⟨true, true, 0, true, true, 0⟩]).port.rst = true ∧
    ((st Phase.uninit [pin (some 0b010) true]).port.rst = false ∧
      (st Phase.uninit [pin (some 0b010) true]).command = 0b010#3) ∧
    (st Phase.ready [pin (some 0b101) true]).command = 0b10#2 ++ BitVec.ofBool true ∧
    (st Phase.ready [pin (some 0b100) true]).command = 0b10#2 ++ BitVec.ofBool false ∧
    (st Phase.ready [pin (some 0b110) true]).command = 0b110#3 ∧
    ((st Phase.uninit [pin (some 0b100) true]).command ≠ 0b010#3 ∧ Phase.uninit ≠ Phase.ready) := by decide

theorem witness_ResetStepWritesEveryRegister :
    (st 15 [⟨true, true, 5, true, true, 0⟩]).port.rst = true ∧
    ((st Phase.fatal quiet).port.rst = false ∧ ∃ t, step (st Phase.fatal quiet) = .next t) ∧
    (busy Phase.validate = true ∧ Phase.validate ≠ Phase.assemble ∧ ∃ t, step (st Phase.validate quiet) = .next t) :=
  ⟨by decide, ⟨by decide, _, rfl⟩, by decide, by decide, _, rfl⟩

theorem witness_NopHasNoEffect :
    (st Phase.hsLow quiet).port.rst = false ∧ (st Phase.hsLow quiet).port.cmdValid = false ∧
    (st Phase.hsLow [pin (some 0) true]).port.cmd = 0b000#3 := by decide

theorem witness_InitLeavesUninit :
    (st Phase.uninit quiet).phase = Phase.uninit ∧ (st Phase.uninit quiet).port.initOk = true ∧
    (st Phase.uninit [⟨false, true, 2, false, true, 0⟩]).port.initOk = false ∧
    (st Phase.ready quiet).phase ≠ Phase.uninit := by decide

theorem witness_TakeStartsAnAttempt :
    (st Phase.ready quiet).phase = Phase.ready ∧ (st Phase.uninit quiet).phase ≠ Phase.ready := by decide

theorem witness_DestroyClosesTheSession :
    (st Phase.ready quiet).phase = Phase.ready ∧ (st Phase.hsLow quiet).phase ≠ Phase.ready := by decide

theorem witness_FatalAndClosedAreTerminal :
    (st Phase.fatal quiet).Inv ∧ (st Phase.closed quiet).Inv ∧
    ∀ i < 1, ((st Phase.fatal quiet).portAt i).rst = false ∧ ((st Phase.closed quiet).portAt i).rst = false :=
  ⟨inv_idle (by simp) _, inv_idle (by simp) _, by decide⟩

theorem witness_HsLowHoldsTheLineLow :
    ({ st Phase.hsLow quiet with hsCount := 17999 } : State).hsCount = 17999 ∧
    (∀ n ∈ [0, 17998, 18000, 32766], BitVec.ofNat 15 n ≠ 17999 ∧ (BitVec.ofNat 15 n).toNat < 32767) := by decide

theorem witness_HsHighReleasesTheLine :
    ({ st Phase.hsHigh quiet with hsCount := 39 } : State).hsCount = 39 ∧
    (∀ n ∈ [0, 38, 40, 32766], BitVec.ofNat 15 n ≠ 39 ∧ (BitVec.ofNat 15 n).toNat < 32767) := by decide

/-- An attempt start whose line is quiet for the whole handshake; the number of steps can be any up to 18040. -/
theorem witness_HandshakeWaveform :
    let s : State := startAttempt (st Phase.ready (List.replicate 18040 (pin none true)))
    s.phase = Phase.hsLow ∧ s.hsCount = 0 ∧ s.lineOe = true ∧ s.lineOut = Level.low ∧
      ∀ i < 18040, (s.portAt i).rst = false :=
  ⟨rfl, rfl, rfl, rfl, fun i hi => by rw [portAt_replicate rfl hi]; rfl⟩

theorem witness_SampleSameLevelCounts :
    (nearTimeout quiet).port.lineIn = (nearTimeout quiet).lastLevel ∧ (nearTimeout quiet).spinCount.toNat = 254 ∧
    ({ st Phase.sampling quiet with spinCount := 253 } : State).spinCount.toNat < 254 := by decide

theorem witness_SaturationAbortsThePass :
    (nearTimeout quiet).Inv ∧ (nearTimeout quiet).phase = Phase.sampling ∧
    (nearTimeout quiet).port.lineIn = (nearTimeout quiet).lastLevel ∧ (nearTimeout quiet).spinCount.toNat + 1 = 255 ∧
    ({ nearTimeout quiet with stAbort := true } : State).frameBytes = [0, 0, 0, 0, 0] :=
  ⟨inv_nearTimeout _, by decide, by decide, by decide, by decide⟩

theorem witness_SampleTransitionDecodes :
    (st Phase.sampling [pin none false]).port.lineIn ≠ (st Phase.sampling [pin none false]).lastLevel ∧
    Memory.wf goodFrame ∧
    (∀ i ∈ [0, 3, 5, 81, 83], (BitVec.ofNat 7 i).toNat < 127 ∧
      ¬ (4 ≤ (BitVec.ofNat 7 i).toNat ∧ (BitVec.ofNat 7 i).toNat % 2 = 0)) ∧
    (∀ i ∈ [4, 82, 126], (BitVec.ofNat 7 i).toNat < 127 ∧ 4 ≤ (BitVec.ofNat 7 i).toNat ∧ (BitVec.ofNat 7 i).toNat % 2 = 0) ∧
    (39#6).toNat < 40 := by decide

theorem witness_SampleFaultsOnlyBeyondTheFrame :
    step { st Phase.sampling [pin none false] with tIndex := 84, bitCount := 40 } = .fault (.frameAddress 5) ∧
    (st Phase.sampling [pin none false]).port.lineIn ≠ Level.high ∧ 4 ≤ (84#7).toNat ∧ (84#7).toNat % 2 = 0 ∧
    40 ≤ (40#6).toNat ∧ ¬ 40 ≤ (39#6).toNat :=
  ⟨rfl, by decide⟩

theorem witness_SampleFrameCondition :
    (∃ t, exec .sample (st Phase.sampling quiet) = .next t) ∧
    (st Phase.sampling quiet).port.lineIn = (st Phase.sampling quiet).lastLevel ∧
    (∃ t, exec .sample (st Phase.sampling [pin none false]) = .next t) ∧
    (st Phase.sampling [pin none false]).port.lineIn ≠ (st Phase.sampling [pin none false]).lastLevel :=
  ⟨⟨_, rfl⟩, by decide, ⟨_, rfl⟩, by decide⟩

theorem witness_CounterOverflowLeavesAFreeValue :
    (st Phase.sampling quiet).port.lineIn = (st Phase.sampling quiet).lastLevel ∧
    ({ st Phase.sampling quiet with spinCount := 255 } : State).spinCount = 255 ∧
    (st Phase.sampling [pin none false]).port.lineIn ≠ (st Phase.sampling [pin none false]).lastLevel ∧
    ({ st Phase.sampling [pin none false] with tIndex := 127 } : State).tIndex = 127 ∧
    ({ st Phase.hsLow quiet with hsCount := 32767 } : State).hsCount = 32767 := by decide

/-- A pass that the cap ends, 83 changes of level, and one that saturation ends. -/
theorem witness_ObservationsAlternate :
    ((samplePass ((List.range 83).map (fun i => i % 2 == 1))).map (fun r => (r.aborted, r.obs.length, r.consumed)) =
      some (false, 83, 83)) ∧
    ((samplePass (List.replicate 255 true)).map (fun r => (r.aborted, r.obs.length, r.consumed)) = some (true, 0, 255)) := by
  decide +kernel

theorem witness_EveryPassTerminates : 21165 ≤ (List.replicate 21165 Level.high).length := by
  rw [List.length_replicate]

theorem witness_DurationCountsSamples :
    (1 ≤ 1 ∧ 1 ≤ 254) ∧ (1 ≤ 254 ∧ 254 ≤ 254) ∧ (1 ≤ 255 ∧ 255 ≤ 255) ∧
    (List.replicate 81 (Observation.mk 0 true)).length ≤ 81 ∧ (List.replicate 80 (Observation.mk 0 true)).length ≤ 81 := by
  decide

theorem witness_OnlyClassifiedDurationsMatter :
    [Observation.mk 9 true].length ≤ 4 ∧
    [Observation.mk 9 true, Observation.mk 9 false].length = [Observation.mk 200 false, Observation.mk 0 false].length ∧
    ∀ i, 4 ≤ i → i % 2 = 0 →
      [Observation.mk 9 true, Observation.mk 9 false][i]?.map (fun o => o.duration) =
      [Observation.mk 200 false, Observation.mk 0 false][i]?.map (fun o => o.duration) :=
  ⟨by decide, by decide, fun i h _ => by
    rw [List.getElem?_eq_none (by simp; omega), List.getElem?_eq_none (by simp; omega)]⟩

theorem witness_AtMostFortyBitsAreDecoded :
    (List.replicate 84 (Observation.mk 0 true)).length ≤ 84 ∧ 85 ≤ (List.replicate 85 (Observation.mk 0 true)).length := by
  decide

theorem witness_FrameBitsAreThresholdedDurations :
    (List.replicate 83 (Observation.mk 31 true)).length = 83 ∧ (0 < 40 ∧ 39 < 40) ∧
    (List.replicate 83 (Observation.mk 31 true))[4 + 2 * 39]? = some ⟨31, true⟩ ∧
    (decodeObs (List.replicate 83 (Observation.mk 31 true))).map (fun r => r.1[39 / 8]?) = some (some 255) := by decide

theorem witness_AppendedBitsStandRightAligned : [true, false, true, true, false, false, true, true].length ≤ 8 := by decide

theorem witness_StreamedDecoderIsDecode :
    (st Phase.sampling [pin none false]).port.lineIn ≠ (st Phase.sampling [pin none false]).lastLevel ∧
    decodeStep 4 31 [] 0 = .ok ([(0, 1)], 1) ∧ (List.replicate 84 (Observation.mk 0 true)).length ≤ 84 := by decide

theorem witness_BlockPassIsSamplePass :
    let s : State := st Phase.sampling (List.replicate 255 (pin none true))
    s.phase = Phase.sampling ∧ s.lastLevel = Level.high ∧ s.spinCount = 0 ∧ s.tIndex = 0 ∧ s.bitCount = 0 ∧ s.frame = [] ∧
      s.stAbort = false ∧ (∀ p ∈ s.inputs, p.rst = false) ∧
      samplePass (s.inputs.map (fun p => p.lineIn)) = some ⟨[], true, 255⟩ :=
  ⟨rfl, rfl, rfl, rfl, rfl, rfl, rfl, fun p hp => by rw [(List.mem_replicate.1 hp).2]; rfl, by decide +kernel⟩

/-- The same for a pass that the cap ends, 83 changes of level. -/
theorem witness_BlockPassIsSamplePass_cap :
    let s : State := st Phase.sampling ((List.range 83).map (fun i => pin none (i % 2 == 1)))
    s.phase = Phase.sampling ∧ s.lastLevel = Level.high ∧ s.spinCount = 0 ∧ s.tIndex = 0 ∧ s.bitCount = 0 ∧ s.frame = [] ∧
      s.stAbort = false ∧ (∀ p ∈ s.inputs, p.rst = false) ∧
      (samplePass (s.inputs.map (fun p => p.lineIn))).map (fun r => (r.aborted, r.consumed)) = some (false, 83) :=
  ⟨rfl, rfl, rfl, rfl, rfl, rfl, rfl, fun p hp => by obtain ⟨i, -, rfl⟩ := List.mem_map.1 hp; rfl, by decide +kernel⟩

theorem witness_ValidateJudgesAndBranches :
    ({ st Phase.validate quiet with frame := goodFrame } : State).frameBytes = [45, 7, 22, 3, 77] ∧
    (false = decide ((40#6).toNat < 40) ∧ true = decide ((39#6).toNat < 40)) ∧
    false = decide ((77#8).toNat ≠ ((45#8).toNat + (7#8).toNat + (22#8).toNat + (3#8).toNat) % 256) ∧
    true = decide ((78#8).toNat ≠ ((45#8).toNat + (7#8).toNat + (22#8).toNat + (3#8).toNat) % 256) := by decide

theorem witness_FlagWrites :
    (st Phase.validate quiet).port.rst = false ∧ (∃ t, step (st Phase.validate quiet) = .next t) ∧
    (st Phase.validate quiet).frameBytes = [0, 0, 0, 0, 0] ∧ (∃ t, step (nearTimeout quiet) = .next t) ∧
    (∃ t, step (st Phase.ready [pin (some 4) true]) = .next t ∧ t.phase = Phase.hsLow) :=
  ⟨by decide, ⟨_, rfl⟩, by decide, ⟨_, rfl⟩, ⟨_, rfl, rfl⟩⟩

theorem witness_TimeoutIsFollowedByShortFrame :
    (timedOut quiet).Inv ∧ (timedOut quiet).phase = Phase.validate ∧
    (nearTimeout (List.replicate 2 (pin none true))).Inv ∧
    (nearTimeout (List.replicate 2 (pin none true))).phase = Phase.sampling ∧
    (nearTimeout (List.replicate 2 (pin none true))).port.rst = false ∧
    ((nearTimeout (List.replicate 2 (pin none true))).portAt 1).rst = false ∧
    (nearTimeout (List.replicate 2 (pin none true))).port.lineIn = Level.high ∧
    (nearTimeout (List.replicate 2 (pin none true))).spinCount = 254 ∧
    (nearTimeout (List.replicate 2 (pin none true))).force = false :=
  ⟨inv_timedOut _, by decide, inv_nearTimeout _, by decide, by decide, by decide, by decide, by decide, by decide⟩

theorem witness_AssembleWritesTheRecord :
    ({ st Phase.assemble quiet with frame := goodFrame } : State).frameBytes = [45, 7, 22, 3, 77] := by decide

theorem witness_ReadingIsBuiltFromTheDataBytes :
    ({ st Phase.assemble quiet with frame := goodFrame } : State).frameBytes = [45, 7, 22, 3, 77] ∧
    State.reset.reading.fields.map (fun d => d.value) = State.reset.reading.fields.map (fun d => d.value) :=
  ⟨by decide, rfl⟩

theorem witness_RecordDependsOnDataBytesOnly :
    let s : State := { st Phase.assemble quiet with frame := frameOf 45 7 22 3 77, bitCount := 40, stFresh := true }
    let t : State := { st Phase.assemble quiet with frame := frameOf 45 7 22 3 78, bitCount := 40, stCsum := true }
    (∃ u, exec .assemble s = .next u) ∧ (∃ u, exec .assemble t = .next u) ∧
      s.frameBytes.take 4 = t.frameBytes.take 4 ∧ s.port.timeIn = t.port.timeIn :=
  ⟨⟨_, rfl⟩, ⟨_, rfl⟩, by decide, rfl⟩

theorem witness_RecordAndPulseWrites :
    (st Phase.assemble quiet).port.rst = false ∧ (∃ t, step (st Phase.assemble quiet) = .next t) ∧
    (st Phase.ready [pin (some 2) true]).phase ≠ Phase.assemble ∧
    ∃ t, step (st Phase.ready [pin (some 2) true]) = .next t ∧ t.cmdReject = true :=
  ⟨by decide, ⟨_, rfl⟩, by decide, ⟨_, rfl, rfl⟩⟩

theorem witness_PortsAreReadOnlyWhereTheRulesSay :
    (st Phase.ready []).phase ≠ Phase.sampling ∧ (st Phase.ready []).phase ≠ Phase.assemble ∧
    (st Phase.ready []).phase ≠ Phase.uninit ∧ (pin none true).cmdValid = false := by decide

/-- One step for each change of phase. -/
theorem witness_EveryPhaseChange :
    after (step (st Phase.closed [⟨true, false, 0, true, true, 0⟩])) (fun t => t.phase) = some Phase.uninit ∧
    after (step (st Phase.uninit [pin (some 2) true])) (fun t => t.phase) = some Phase.ready ∧
    after (step (st Phase.uninit [⟨false, true, 2, false, true, 0⟩])) (fun t => t.phase) = some Phase.fatal ∧
    after (step (st Phase.ready [pin (some 4) true])) (fun t => t.phase) = some Phase.hsLow ∧
    after (step (st Phase.ready [pin (some 6) true])) (fun t => t.phase) = some Phase.closed ∧
    after (step { st Phase.hsLow quiet with hsCount := 17999 }) (fun t => t.phase) = some Phase.hsHigh ∧
    after (step { st Phase.hsHigh quiet with hsCount := 39 }) (fun t => t.phase) = some Phase.sampling ∧
    after (step (nearTimeout quiet)) (fun t => t.phase) = some Phase.validate ∧
    after (step { st Phase.sampling [pin none false] with tIndex := 82 }) (fun t => t.phase) = some Phase.validate ∧
    after (step (timedOut quiet)) (fun t => t.phase) = some Phase.assemble ∧
    after (step { timedOut quiet with force := true }) (fun t => t.phase) = some Phase.hsLow ∧
    after (step (st Phase.assemble quiet)) (fun t => t.phase) = some Phase.ready := by decide

theorem witness_FrameBytesAreWrittenOnlyBy :
    (∃ t, step { timedOut quiet with force := true } = .next t ∧ t.phase = Phase.hsLow) ∧
    (timedOut quiet).phase ≠ Phase.hsLow ∧ (timedOut quiet).phase ≠ Phase.sampling ∧
    (∃ t, step (st Phase.sampling [pin none false]) = .next t ∧ t.phase = Phase.sampling) :=
  ⟨⟨_, rfl, rfl⟩, by decide, by decide, ⟨_, rfl, rfl⟩⟩

theorem witness_ReservedPhaseCodesFault :
    (st 9 quiet).port.rst = false ∧ 9 ≤ (st 9 quiet).phase.toNat ∧ 9 ≤ (st 15 quiet).phase.toNat ∧
    ∃ t, step (st Phase.ready quiet) = .next t :=
  ⟨by decide, by decide, by decide, _, rfl⟩

theorem witness_EveryStepKeepsTheInvariant :
    (st Phase.ready [pin (some 5) true]).Inv ∧ (∃ t, step (st Phase.ready [pin (some 5) true]) = .next t) ∧
    (nearTimeout quiet).Inv ∧ (∃ t, step (nearTimeout quiet) = .next t) :=
  ⟨inv_idle (by simp) _, ⟨_, rfl⟩, inv_nearTimeout _, ⟨_, rfl⟩⟩

theorem witness_TheBlockNeverStops : (timedOut quiet).Inv ∧ (nearTimeout quiet).Inv :=
  ⟨inv_timedOut _, inv_nearTimeout _⟩

/-- For both statements about reachable states: two steps from reset, an `INIT` and a `TAKE`. -/
theorem witness_ReachableStates :
    ∃ t, steps 2 { State.reset with inputs := [pin (some 2) true, pin (some 5) true], draws := 0 } = .next t ∧
      t.phase = Phase.hsLow :=
  ⟨_, rfl, rfl⟩

theorem witness_NonForcedTakeTerminates :
    let s : State := st Phase.ready (List.replicate 39208 (pin (some 0b100) true))
    s.Inv ∧ s.phase = Phase.ready ∧ s.port.cmdValid = true ∧ s.port.cmd = 0b100#3 ∧
      ∀ i < 39208, (s.portAt i).rst = false := by
  have h : ∀ i < 39208, (st Phase.ready (List.replicate 39208 (pin (some 0b100) true))).portAt i = pin (some 0b100) true :=
    fun i hi => portAt_replicate rfl hi
  refine ⟨inv_idle (by simp) _, rfl, ?_, ?_, fun i hi => by rw [h i hi]; rfl⟩
  · rw [State.port, h 0 (by decide)]; rfl
  · rw [State.port, h 0 (by decide)]; rfl

/-- 40000 steps: the first attempt ends after 18297 of them and the second after 36593. -/
theorem witness_ForcedTakeOnADeadLineNeverCompletes :
    let s : State := st Phase.ready (List.replicate 40000 (pin (some 0b101) true))
    s.Inv ∧ s.phase = Phase.ready ∧ s.port.cmdValid = true ∧ s.port.cmd = 0b101#3 ∧ 0 < 40000 ∧
      ∀ i < 40000, (s.portAt i).rst = false ∧ (s.portAt i).lineIn = Level.high := by
  have h : ∀ i < 40000, (st Phase.ready (List.replicate 40000 (pin (some 0b101) true))).portAt i = pin (some 0b101) true :=
    fun i hi => portAt_replicate rfl hi
  refine ⟨inv_idle (by simp) _, rfl, ?_, ?_, by decide, fun i hi => by rw [h i hi]; exact ⟨rfl, rfl⟩⟩
  · rw [State.port, h 0 (by decide)]; rfl
  · rw [State.port, h 0 (by decide)]; rfl

theorem witness_AttemptsInheritNothing :
    let s1 : State := { st Phase.ready (List.replicate 2 (pin (some 0b100) true)) with frame := goodFrame, bitCount := 40 }
    let s2 : State := st Phase.ready (List.replicate 2 (pin (some 0b100) true))
    s1.phase = Phase.ready ∧ s2.phase = Phase.ready ∧ s1.inputs = s2.inputs ∧ s1.draws = s2.draws ∧
      s1.port.rst = false ∧ s1.port.cmdValid = true ∧ s1.port.cmd = 0b100#3 ∧ ∃ t, steps 2 s1 = .next t :=
  ⟨rfl, rfl, rfl, rfl, rfl, rfl, rfl, _, rfl⟩

end Sys2Proof.Tests
end

section
/-! SUPPORT. The invariant of the block (`State.Inv`, 10_state.md R30 and R31) holds at reset and is kept by every step, so it
holds in every reachable state. -/

namespace Sys2Proof.Machine

/-! ## What the invariant does not look at -/

/-- The invariant speaks of no pulse and of no input to come. -/
theorem inv_of_pulses_and_inputs {s : State} (h : s.Inv) (v r : Bool) (ps : List PortIn) (d : Nat) :
    ({ s with rdValid := v, cmdReject := r, inputs := ps, draws := d } : State).Inv :=
  ⟨⟨h.r30.1, h.r30.2, h.r30.3, h.r30.4, h.r30.5, h.r30.6, h.r30.7, h.r30.8⟩,
    ⟨h.r31.1, h.r31.2, h.r31.3, h.r31.4, h.r31.5, h.r31.6⟩,
    ⟨h.phases.1, h.phases.2, h.phases.3, h.phases.4, h.phases.5⟩⟩

theorem inv_clearPulses {s : State} (h : s.Inv) : s.clearPulses.Inv := inv_of_pulses_and_inputs h _ _ _ _

theorem inv_polled {s : State} (h : s.Inv) : s.polled.Inv := inv_of_pulses_and_inputs h _ _ _ _

theorem inv_advance {s : State} (h : s.Inv) : s.advance.Inv := inv_of_pulses_and_inputs h _ _ _ _

/-- R31 speaks of `tIndex`, `bitCount` and the frame only. -/
theorem r31_congr {s u : State} (h : s.R31) (ht : u.tIndex = s.tIndex) (hb : u.bitCount = s.bitCount)
    (hf : u.frame = s.frame) : u.R31 := by
  constructor <;> simp only [ht, hb, hf]
  exacts [h.countEarly, h.countLate, h.countLe, h.countFull, h.bytesAbove, h.bytePartial]

/-! ## States that have the invariant -/

/-- R31 at an empty frame: after reset and after an attempt start. -/
theorem r31_of_cleared {u : State} (ht : u.tIndex = 0) (hb : u.bitCount = 0) (hf : u.frame = []) : u.R31 := by
  constructor <;> simp [ht, hb, hf]

/-- The reset state has the invariant, whatever inputs are to come (10_state.md R29). -/
theorem inv_reset (ps : List PortIn) (d : Nat) : State.Inv { State.reset with inputs := ps, draws := d } where
  r30 := by constructor <;> simp [State.reset]
  r31 := r31_of_cleared rfl rfl rfl
  phases := ⟨wf_nil, by simp [State.reset], by simp [State.reset], by simp [State.reset], by simp [State.reset]⟩

/-- An attempt start has the invariant, whatever state it starts in (44_session.md R156). -/
theorem inv_startAttempt (s : State) : (startAttempt s).Inv where
  r30 := by constructor <;> simp
  r31 := r31_of_cleared rfl rfl rfl
  phases := ⟨wf_nil, by simp, by simp, by simp, by simp⟩

/-! ## Counters and the appended byte, as numbers -/

theorem writeSpin_toNat (d : Nat) {n : Nat} (h : n < 256) : (writeSpin d n).toNat = n := by
  rw [writeSpin_of_lt d h, BitVec.toNat_ofNat, Nat.mod_eq_of_lt h]

theorem writeTIndex_toNat (d : Nat) {n : Nat} (h : n < 128) : (writeTIndex d n).toNat = n := by
  rw [writeTIndex_of_lt d h, BitVec.toNat_ofNat, Nat.mod_eq_of_lt h]

theorem writeHs_toNat (d : Nat) {n : Nat} (h : n < 32768) : (writeHs d n).toNat = n := by
  rw [writeHs_of_lt d h, BitVec.toNat_ofNat, Nat.mod_eq_of_lt h]

/-- The byte address of a bit count (41_decoder.md R115). -/
theorem shiftRight_three (n : Nat) : n >>> 3 = n / 8 := Nat.shiftRight_eq_div_pow n 3

/-- The number of bits already in the byte at that address. -/
theorem and_seven (n : Nat) : n &&& 7 = n % 8 := Nat.and_two_pow_sub_one_eq_mod n 3

/-- The frame's half of R31 for `n` bits: nothing stands above the byte that is being filled, and in that byte only the low
`n % 8` bits may be set. -/
def FilledTo (m : Memory) (n : Nat) : Prop :=
  (∀ k, n / 8 < k → Memory.read m k = 0) ∧ (Memory.read m (n / 8)).toNat < 2 ^ (n % 8)

/-- A bit append fills the frame by one bit (41_decoder.md R115, R116). -/
theorem filledTo_append {m : Memory} {n : Nat} (hm : Memory.wf m) (h : FilledTo m n) (b : Bool) :
    FilledTo (Memory.write m (n / 8) (shiftIn (Memory.read m (n / 8)) b)) (n + 1) := by
  obtain ⟨habove, hpart⟩ := h
  refine ⟨fun k hk => ?_, ?_⟩
  · rw [read_write_other _ _ (by omega)]
    exact habove k (by omega)
  · by_cases hr : n % 8 = 7
    · have hk : (n + 1) / 8 = n / 8 + 1 := by omega
      have hz : (n + 1) % 8 = 0 := by omega
      rw [hk, hz, read_write_other _ _ (by omega), habove _ (by omega)]
      decide
    · have hk : (n + 1) / 8 = n / 8 := by omega
      have hz : (n + 1) % 8 = n % 8 + 1 := by omega
      rw [hk, hz, read_write_same _ _ _ hm.1, shiftIn_toNat, Nat.pow_succ]
      have hb : b.toNat ≤ 1 := Bool.toNat_le b
      omega

/-- R31 in one formula for the bit count and one for the frame. -/
theorem r31_of_filledTo {s : State} (ht : s.tIndex.toNat ≤ 83) (hb : s.bitCount.toNat = (s.tIndex.toNat - 3) / 2)
    (hf : FilledTo s.frame s.bitCount.toNat) : s.R31 where
  countEarly := by omega
  countLate _ := by rw [Nat.shiftRight_one, hb]
  countLe := by omega
  countFull := by omega
  bytesAbove k hk := hf.1 k (by rwa [← shiftRight_three])
  bytePartial _ := by rw [shiftRight_three, and_seven, Nat.one_shiftLeft]; exact hf.2

theorem State.R31.bitCount_eq {s : State} (h : s.R31) : s.bitCount.toNat = (s.tIndex.toNat - 3) / 2 := by
  by_cases ht : s.tIndex.toNat < 4
  · rw [h.countEarly ht]; omega
  · rw [h.countLate (by omega), Nat.shiftRight_one]

theorem State.R31.filledTo {s : State} (h : s.R31) (hlt : s.bitCount.toNat < 40) :
    FilledTo s.frame s.bitCount.toNat := by
  have hp := h.bytePartial hlt
  rw [shiftRight_three, and_seven, Nat.one_shiftLeft] at hp
  exact ⟨fun k hk => h.bytesAbove k (by rwa [shiftRight_three]), hp⟩

/-! ## The bounds of a phase, in numerals -/

theorem State.Inv.hsCount_lt {s : State} (hi : s.Inv) : s.hsCount.toNat < 18000 := hi.r30.hsLt

theorem State.Inv.highHold {s : State} (hi : s.Inv) (h : s.phase = Phase.hsHigh) : s.hsCount.toNat < 40 :=
  hi.phases.highHold h

theorem State.Inv.passOpen {s : State} (hi : s.Inv) (h : s.phase = Phase.sampling) :
    s.spinCount.toNat < 255 ∧ s.tIndex.toNat < 83 ∧ s.stAbort = false := hi.phases.passOpen h

/-! ## Every micro-operation keeps R31 -/

theorem MicroEffect.r31 {s u : State} (h : MicroEffect s u) (hi : s.Inv) : u.R31 := by
  cases h with
  | skip h hl hc =>
    obtain ⟨-, ht, -⟩ := hi.passOpen h
    have hb := hi.r31.bitCount_eq
    have ht' := writeTIndex_toNat s.draws (n := s.tIndex.toNat + 1) (by omega)
    exact r31_of_filledTo (ht'.trans_le (by omega)) (by dsimp only; omega) (hi.r31.filledTo (by omega))
  | append h hl hc hlt =>
    obtain ⟨-, ht, -⟩ := hi.passOpen h
    have hb := hi.r31.bitCount_eq
    have ht' := writeTIndex_toNat s.draws (n := s.tIndex.toNat + 1) (by omega)
    have hb' : (s.bitCount + 1).toNat = s.bitCount.toNat + 1 := by bv_omega
    refine r31_of_filledTo (ht'.trans_le (by omega)) (by dsimp only; omega) ?_
    dsimp only
    rw [hb', shiftRight_three]
    exact filledTo_append hi.phases.frameCanonical (hi.r31.filledTo hlt) _
  | retry => exact (inv_startAttempt _).r31
  | idle | lowHold | lowEnd | highHold | highEnd | count | saturate | accept | assemble =>
    exact r31_congr hi.r31 rfl rfl rfl

/-! ## Every micro-operation keeps R30 -/

/-- A transition of an open pass: the level and the parity of `tIndex` turn together (40_sampler.md R93). -/
theorem transition_parity {l x : Level} {n : Nat} (h : l = Level.high ↔ n % 2 = 0) (hx : x ≠ l) :
    x = Level.high ↔ (n + 1) % 2 = 0 := by
  cases l <;> cases x <;> simp at h hx ⊢ <;> omega

/-- R30 while a hold of the handshake goes on. -/
theorem r30_hold {s : State} (h : s.R30) (hn : s.hsCount.toNat + 1 < 18000) :
    State.R30 { s with hsCount := writeHs s.draws (s.hsCount.toNat + 1) } :=
  { h with hsLt := (writeHs_toNat s.draws (by omega)).trans_lt hn }

/-- R30 after a transition, whatever the decoder has written. -/
theorem r30_transition {s : State} (hi : s.Inv) (h : s.phase = Phase.sampling) (hl : s.port.lineIn ≠ s.lastLevel)
    (m : Memory) (bc : BitVec 6) :
    State.R30 { s with
      frame := m, bitCount := bc, spinCount := 0, lastLevel := s.port.lineIn,
      tIndex := writeTIndex s.draws (s.tIndex.toNat + 1),
      phase := if s.tIndex.toNat + 1 = 83 then Phase.validate else s.phase } := by
  obtain ⟨-, ht, ha⟩ := hi.passOpen h
  have ht' := writeTIndex_toNat s.draws (n := s.tIndex.toNat + 1) (by omega)
  have hoe : s.lineOe = false := by simpa [h] using hi.r30.oeHandshake
  exact {
    phaseNamed := by dsimp only; split <;> simp [h]
    spinLe := by simp
    tIndexLe := ht'.trans_le ht
    hsLt := hi.r30.hsLt
    levelParity := by rw [ht']; exact transition_parity hi.r30.levelParity hl
    oeHandshake := by dsimp only; split <;> simp [h, hoe]
    outLow := by simp [hoe]
    abortSat := by simp [ha] }

theorem MicroEffect.r30 {s u : State} (h : MicroEffect s u) (hi : s.Inv) : u.R30 := by
  have hoe := hi.r30.oeHandshake
  have hout := hi.r30.outLow
  cases h with
  | idle => exact hi.r30
  | lowHold h hc => exact r30_hold hi.r30 (by have := hi.hsCount_lt; omega)
  | lowEnd h hc =>
    exact { hi.r30 with
      phaseNamed := by simp
      hsLt := by simp
      oeHandshake := by simpa [h] using hoe
      outLow := by simp }
  | highHold h hc => exact r30_hold hi.r30 (by have := hi.highHold h; omega)
  | highEnd h hc =>
    exact { hi.r30 with
      phaseNamed := by simp
      hsLt := by simp
      oeHandshake := by simp
      outLow := by simp }
  | count h hl hc =>
    obtain ⟨hs, -, ha⟩ := hi.passOpen h
    exact { hi.r30 with
      spinLe := by omega
      abortSat := by simp [ha] }
  | saturate h hl hc =>
    exact { hi.r30 with
      phaseNamed := by simp
      spinLe := by simp
      oeHandshake := by simpa [h] using hoe
      outLow := by simpa [h] using hout
      abortSat := by simp }
  | skip h hl hc => exact r30_transition hi h hl _ _
  | append h hl hc hlt => exact r30_transition hi h hl _ _
  | accept h hc =>
    exact { hi.r30 with
      phaseNamed := by simp
      oeHandshake := by simpa [h] using hoe
      outLow := by simpa [h] using hout }
  | retry => exact (inv_startAttempt _).r30
  | assemble h =>
    exact { hi.r30 with
      phaseNamed := by simp
      oeHandshake := by simpa [h] using hoe
      outLow := by simpa [h] using hout }

/-! ## Every micro-operation keeps what its phase adds -/

/-- What the phases add, after a transition (40_sampler.md R95). -/
theorem phaseInv_transition {s : State} (hi : s.Inv) (h : s.phase = Phase.sampling)
    {m : Memory} (hm : Memory.wf m) (bc : BitVec 6) :
    State.PhaseInv { s with
      frame := m, bitCount := bc, spinCount := 0, lastLevel := s.port.lineIn,
      tIndex := writeTIndex s.draws (s.tIndex.toNat + 1),
      phase := if s.tIndex.toNat + 1 = 83 then Phase.validate else s.phase } := by
  obtain ⟨-, ht, ha⟩ := hi.passOpen h
  have ht' := writeTIndex_toNat s.draws (n := s.tIndex.toNat + 1) (by omega)
  by_cases hlast : s.tIndex.toNat + 1 = 83
  · rw [hlast] at ht' ⊢
    exact ⟨hm, by simp, by simp, by simp, by simp [ha, ht']⟩
  · have hopen : s.tIndex.toNat + 1 < 83 := by omega
    exact ⟨hm, by simp [hlast, h], by simp [hlast, h], by simp [hlast, ht', ha, hopen], by simp [hlast, h]⟩

theorem MicroEffect.phaseInv {s u : State} (h : MicroEffect s u) (hi : s.Inv) : u.PhaseInv := by
  obtain ⟨hwf, hclr, hhigh, hopen, hover⟩ := hi.phases
  cases h with
  | idle => exact hi.phases
  | lowHold h hc => exact ⟨hwf, hclr, by simp [h], hopen, hover⟩
  | lowEnd h hc => exact ⟨hwf, fun _ => hclr (.inl h), by simp, by simp, by simp⟩
  | highHold h hc =>
    have := hi.highHold h
    have hs := writeHs_toNat s.draws (n := s.hsCount.toNat + 1) (by omega)
    exact ⟨hwf, hclr, fun _ => hs.trans_lt (show _ < 40 by omega), hopen, hover⟩
  | highEnd h hc =>
    obtain ⟨ht, hs, -, ha⟩ := hclr (.inr h)
    exact ⟨hwf, by simp, by simp, by simp [ht, hs, ha], by simp⟩
  | count h hl hc =>
    obtain ⟨hs, ht, ha⟩ := hi.passOpen h
    have hs' := writeSpin_toNat s.draws (n := s.spinCount.toNat + 1) (by omega)
    exact ⟨hwf, by simp [h], by simp [h], fun _ => ⟨hs'.trans_lt (show _ < 255 by omega), ht, ha⟩, by simp [h]⟩
  | saturate h hl hc =>
    obtain ⟨-, ht, -⟩ := hi.passOpen h
    exact ⟨hwf, by simp, by simp, by simp, fun _ => iff_of_true rfl ht⟩
  | skip h hl hc => exact phaseInv_transition hi h hwf _
  | append h hl hc hlt =>
    refine phaseInv_transition hi h (write_wf hwf ?_) _
    rw [shiftRight_three]
    exact Nat.div_lt_of_lt_mul hlt
  | accept h hc => exact ⟨hwf, by simp, by simp, by simp, by simp⟩
  | retry => exact (inv_startAttempt _).phases
  | assemble h => exact ⟨hwf, by simp, by simp, by simp, by simp⟩

theorem MicroEffect.inv {s u : State} (h : MicroEffect s u) (hi : s.Inv) : u.Inv :=
  ⟨h.r30 hi, h.r31 hi, h.phaseInv hi⟩

/-! ## Every step keeps the invariant -/

/-- What an accepted `INIT` or `DESTROY` writes: an idle phase, with the line released (44_session.md R153, R155). -/
theorem inv_idle_phase {s : State} (hi : s.Inv) {p : PhaseCode} {oe : Bool} (hoe : oe = false)
    (hp : p = Phase.ready ∨ p = Phase.fatal ∨ p = Phase.closed) : State.Inv { s with phase := p, lineOe := oe } where
  r30 := { hi.r30 with
    phaseNamed := by rcases hp with rfl | rfl | rfl <;> simp
    oeHandshake := by rcases hp with rfl | rfl | rfl <;> simp [hoe]
    outLow := by simp [hoe] }
  r31 := r31_congr hi.r31 rfl rfl rfl
  phases := by
    rcases hp with rfl | rfl | rfl <;>
      exact ⟨hi.phases.frameCanonical, by simp, by simp, by simp, by simp⟩

/-- Every step keeps the invariant (10_state.md section 11). -/
theorem step_keeps_inv {s t : State} (hi : s.Inv) (hs : step s = .next t) : t.Inv := by
  cases hr : s.port.rst with
  | true =>
    rw [step_of_reset hr] at hs
    cases hs
    exact inv_reset _ _
  | false =>
    rcases step_effect hr hs with ⟨-, hp, rfl⟩ | ⟨f, -, -, rfl⟩ | ⟨-, -, rfl⟩ | ⟨-, u, hu, rfl⟩
    · have hoe : s.lineOe = false := by simpa [hp] using hi.r30.oeHandshake
      exact inv_advance (inv_idle_phase (inv_clearPulses hi) hoe (by cases s.port.initOk <;> simp))
    · exact inv_advance (inv_startAttempt _)
    · exact inv_advance (inv_idle_phase (inv_clearPulses hi) rfl (.inr (.inr rfl)))
    · exact inv_advance (hu.inv (inv_polled hi))

/-- The invariant holds in every state that a run from a state with it reaches. -/
theorem steps_keep_inv (n : Nat) {s t : State} (hi : s.Inv) (hs : steps n s = .next t) : t.Inv := by
  induction n generalizing s with
  | zero => cases hs; exact hi
  | succ n ih =>
    rw [steps_succ, andThen_eq_next] at hs
    obtain ⟨u, hu, ht⟩ := hs
    exact ih (step_keeps_inv hi hu) ht

/-- Every state reachable from reset has the invariant, under any inputs (10_state.md section 11). -/
theorem reachable_inv {ps : List PortIn} {d n : Nat} {t : State}
    (h : steps n { State.reset with inputs := ps, draws := d } = .next t) : t.Inv :=
  steps_keep_inv n (inv_reset ps d) h

end Sys2Proof.Machine
end

section
/-! SUPPORT. No operation reads a status flag (10_state.md R18): steps of two states that differ in the four flags only have
outcomes that differ in the four flags only. -/

namespace Sys2Proof.Machine

/-! ## Outcomes up to the flags -/

/-- A state without its four status flags. -/
def State.eraseFlags (s : State) : State :=
  { s with stFresh := false, stShort := false, stCsum := false, stAbort := false }

/-- An outcome without the status flags of its next state. -/
def eraseOutcome (o : StepOutcome) : StepOutcome := andThen o (fun s => .next s.eraseFlags)

/-- An operation reads no flag: with the flags erased before it, it does the same to everything but the flags. -/
def FlagBlind (f : State → StepOutcome) : Prop := ∀ s, eraseOutcome (f s.eraseFlags) = eraseOutcome (f s)

/-- Two states that are equal but for the flags: one is the other with its own flags put in. -/
theorem eq_of_eraseFlags_eq {t u : State} (h : u.eraseFlags = t.eraseFlags) :
    u = { t with stFresh := u.stFresh, stShort := u.stShort, stCsum := u.stCsum, stAbort := u.stAbort } :=
  congrArg (fun x : State =>
    { x with stFresh := u.stFresh, stShort := u.stShort, stCsum := u.stCsum, stAbort := u.stAbort }) h

theorem eraseOutcome_eq_next {o : StepOutcome} {r : State} :
    eraseOutcome o = .next r ↔ ∃ u, o = .next u ∧ u.eraseFlags = r := by
  simp [eraseOutcome, andThen_eq_next]

/-! ## How flag-blind operations are put together -/

/-- A flag-blind operation sees of a first outcome what the erased outcome shows. -/
theorem FlagBlind.eraseOutcome_andThen {g : State → StepOutcome} (hg : FlagBlind g) (o : StepOutcome) :
    eraseOutcome (Machine.andThen o g) = eraseOutcome (Machine.andThen (eraseOutcome o) g) := by
  cases o with
  | next s => exact (hg s).symm
  | fault r => rfl
  | refused r => rfl

/-- One flag-blind operation after another. -/
theorem FlagBlind.andThen {f g : State → StepOutcome} (hf : FlagBlind f) (hg : FlagBlind g) :
    FlagBlind (fun s => andThen (f s) g) := by
  intro s
  rw [hg.eraseOutcome_andThen, hf s, ← hg.eraseOutcome_andThen]

/-- A branch on a test that reads no flag. -/
theorem FlagBlind.ite {p : State → Prop} [DecidablePred p] {f g : State → StepOutcome}
    (hp : ∀ s, p s.eraseFlags ↔ p s) (hf : FlagBlind f) (hg : FlagBlind g) :
    FlagBlind (fun s => if p s then f s else g s) := by
  intro s
  by_cases h : p s
  · simpa [hp, h] using hf s
  · simpa [hp, h] using hg s

/-! ## The operations -/

theorem flagBlind_initPhase :
    FlagBlind (fun s => .next (if s.initOk then { s with phase := Phase.ready } else raise .initFail s)) := by
  intro s
  have ho : s.eraseFlags.initOk = s.initOk := rfl
  dsimp only
  rw [ho]
  cases s.initOk <;> rfl

theorem flagBlind_init : FlagBlind (exec .init) :=
  .ite (p := fun s => s.phase = Phase.uninit) (fun _ => .rfl)
    flagBlind_initPhase (fun _ => rfl)

theorem flagBlind_take (f : Bool) : FlagBlind (exec (.take f)) :=
  .ite (p := fun s => s.phase = Phase.ready) (fun _ => .rfl) (fun _ => rfl) (fun _ => rfl)

theorem flagBlind_destroy : FlagBlind (exec .destroy) :=
  .ite (p := fun s => s.phase = Phase.ready) (fun _ => .rfl) (fun _ => rfl) (fun _ => rfl)

theorem flagBlind_hsLow : FlagBlind (exec .hsLow) :=
  .ite (p := fun s => s.hsCount.toNat + 1 = Config.hsLowTicks) (fun _ => .rfl) (fun _ => rfl) (fun _ => rfl)

theorem flagBlind_hsHigh : FlagBlind (exec .hsHigh) :=
  .ite (p := fun s => s.hsCount.toNat + 1 = Config.hsHighTicks) (fun _ => .rfl) (fun _ => rfl) (fun _ => rfl)

theorem flagBlind_sampleSame : FlagBlind (fun s => .next (sampleSame s)) := by
  intro s
  change eraseOutcome (.next (if s.spinCount.toNat + 1 = Config.sat then _ else _)) =
    eraseOutcome (.next (if s.spinCount.toNat + 1 = Config.sat then _ else _))
  split <;> rfl

theorem flagBlind_sampleTransition : FlagBlind sampleTransition := by
  intro s
  have hd : decodeStep s.eraseFlags.tIndex.toNat s.eraseFlags.observation.duration s.eraseFlags.frame
      s.eraseFlags.bitCount = decodeStep s.tIndex.toNat s.observation.duration s.frame s.bitCount := rfl
  unfold sampleTransition
  rw [hd]
  cases decodeStep s.tIndex.toNat s.observation.duration s.frame s.bitCount <;> rfl

theorem flagBlind_sample : FlagBlind (exec .sample) :=
  .ite (p := fun s => s.lineRead = s.lastLevel) (fun _ => .rfl) flagBlind_sampleSame flagBlind_sampleTransition

/-- `VALIDATE` writes its flags without reading them, and branches on the verdict and `force` (42_validator.md R128,
44_session.md R160). -/
theorem execValidate_eq (s : State) : execValidate s =
    if (!s.shortFrame && !s.badChecksum || !s.force) = true then
      .next { s with
        stShort := s.shortFrame, stCsum := s.badChecksum, stFresh := !s.shortFrame && !s.badChecksum,
        phase := Phase.assemble }
    else .next (startAttempt { s with
      stShort := s.shortFrame, stCsum := s.badChecksum, stFresh := !s.shortFrame && !s.badChecksum }) := by
  rw [execValidate, writeVerdict_eq, respond]
  split <;> rfl

theorem flagBlind_validate : FlagBlind (exec .validate) := by
  change FlagBlind execValidate
  rw [funext execValidate_eq]
  exact .ite (fun _ => .rfl) (fun _ => rfl) (fun _ => rfl)

theorem flagBlind_exec (i : Instr) : FlagBlind (exec i) := by
  cases i with
  | init => exact flagBlind_init
  | take f => exact flagBlind_take f
  | destroy => exact flagBlind_destroy
  | hsLow => exact flagBlind_hsLow
  | hsHigh => exact flagBlind_hsHigh
  | sample => exact flagBlind_sample
  | validate => exact flagBlind_validate
  | _ => exact fun _ => rfl

/-! ## The step -/

theorem flagBlind_step : FlagBlind step := by
  refine .ite (p := fun s => s.port.rst = true) (fun _ => .rfl) (fun _ => rfl) fun s => ?_
  have hcmd : FlagBlind (fun t => exec (decodeCmd s.command) t.clearPulses) :=
    fun t => flagBlind_exec (decodeCmd s.command) t.clearPulses
  exact ((hcmd.andThen (flagBlind_exec (decodePhase s.phase))).andThen (g := fun t => .next t.advance) fun _ => rfl) s

/-- States that differ in the flags only step to states that differ in the flags only. -/
theorem step_of_eraseFlags_eq {s s' t : State} (h : s'.eraseFlags = s.eraseFlags) (ht : step s = .next t) :
    ∃ u, step s' = .next u ∧ u.eraseFlags = t.eraseFlags := by
  refine eraseOutcome_eq_next.1 ?_
  calc eraseOutcome (step s') = eraseOutcome (step s'.eraseFlags) := (flagBlind_step s').symm
    _ = eraseOutcome (step s) := by rw [h, flagBlind_step s]
    _ = .next t.eraseFlags := by rw [ht]; rfl

end Sys2Proof.Machine
end

section
/-! SUPPORT. The record, the pulses and the status flags: what a step does to each (10_state.md R18, R22, R23). -/

namespace Sys2Proof.Machine

/-! ## The state in which the micro-operation runs -/

@[simp] theorem polled_phase (s : State) : s.polled.phase = s.phase := rfl
@[simp] theorem polled_port (s : State) : s.polled.port = s.port := rfl
@[simp] theorem polled_lastLevel (s : State) : s.polled.lastLevel = s.lastLevel := rfl
@[simp] theorem polled_spinCount (s : State) : s.polled.spinCount = s.spinCount := rfl
@[simp] theorem polled_stAbort (s : State) : s.polled.stAbort = s.stAbort := rfl
@[simp] theorem polled_rdValid (s : State) : s.polled.rdValid = false := rfl
@[simp] theorem polled_cmdReject (s : State) : s.polled.cmdReject = decide (s.command ≠ 0b000#3) := rfl

/-! ## Registers kept -/

/-- The record registers are the same in two states (10_state.md R22). -/
def SameRecord (s t : State) : Prop :=
  t.rdHumInt = s.rdHumInt ∧ t.rdHumFrac = s.rdHumFrac ∧ t.rdTmpInt = s.rdTmpInt ∧ t.rdTmpFrac = s.rdTmpFrac ∧ t.rdTs = s.rdTs

/-- The verdict flags are the same in two states (10_state.md R18). -/
def SameVerdict (s t : State) : Prop :=
  t.stShort = s.stShort ∧ t.stCsum = s.stCsum ∧ t.stFresh = s.stFresh

/-- What becomes of `st_abort` outside `SAMPLING`: an attempt start clears it (44_session.md R156), nothing else touches it. -/
def AbortClearedByAttemptStart (s t : State) : Prop :=
  t.stAbort = if t.phase = Phase.hsLow ∧ s.phase ≠ Phase.hsLow then false else s.stAbort

theorem AbortClearedByAttemptStart.cleared {s t : State} (h : AbortClearedByAttemptStart s t)
    (ht : t.phase = Phase.hsLow) (hs : s.phase ≠ Phase.hsLow) : t.stAbort = false :=
  h.trans (if_pos ⟨ht, hs⟩)

theorem AbortClearedByAttemptStart.kept {s t : State} (h : AbortClearedByAttemptStart s t)
    (hp : t.phase = Phase.hsLow → s.phase = Phase.hsLow) : t.stAbort = s.stAbort :=
  h.trans (if_neg fun ⟨ht, hs⟩ => hs (hp ht))

/-! ## Micro-operations -/

section
variable {s u : State} (h : MicroEffect s u)
include h

theorem MicroEffect.cmdReject_eq : u.cmdReject = s.cmdReject := by cases h <;> rfl

theorem MicroEffect.rdValid_eq : u.rdValid = (s.rdValid || s.phase == Phase.assemble) := by
  cases h with
  | assemble hp => simp [hp]
  | idle hp => rcases hp with hp | hp | hp | hp <;> simp [hp]
  | lowHold hp | lowEnd hp | highHold hp | highEnd hp | count hp | saturate hp | skip hp | append hp | accept hp
  | retry hp => simp [hp]

theorem MicroEffect.sameRecord (hp : s.phase ≠ Phase.assemble) : SameRecord s u := by
  cases h with
  | assemble ha => exact absurd ha hp
  | _ => exact ⟨rfl, rfl, rfl, rfl, rfl⟩

theorem MicroEffect.eq_of_assemble (hp : s.phase = Phase.assemble) :
    u = { s with
      rdHumInt := Memory.read s.frame 0, rdHumFrac := Memory.read s.frame 1,
      rdTmpInt := Memory.read s.frame 2, rdTmpFrac := Memory.read s.frame 3,
      rdTs := s.port.timeIn, rdValid := true, phase := Phase.ready } := by
  cases h with
  | assemble => rfl
  | idle h | lowHold h | lowEnd h | highHold h | highEnd h | count h | saturate h | skip h | append h | accept h | retry h =>
    simp [hp] at h

theorem MicroEffect.sameVerdict (hp : s.phase ≠ Phase.validate) : SameVerdict s u := by
  cases h with
  | accept hv | retry hv => exact absurd hv hp
  | _ => exact ⟨rfl, rfl, rfl⟩

theorem MicroEffect.verdict (hp : s.phase = Phase.validate) :
    u.stShort = s.shortFrame ∧ u.stCsum = s.badChecksum ∧ u.stFresh = (!s.shortFrame && !s.badChecksum) := by
  cases h with
  | accept => exact ⟨rfl, rfl, rfl⟩
  | retry _ hc =>
    refine ⟨rfl, rfl, ?_⟩
    rcases hc with hc | hc <;> simp [hc]
  | idle h | lowHold h | lowEnd h | highHold h | highEnd h | count h | saturate h | skip h | append h | assemble h =>
    simp [hp] at h

theorem MicroEffect.stAbort_of_sampling (hp : s.phase = Phase.sampling) :
    u.stAbort = (s.stAbort || (s.port.lineIn == s.lastLevel && s.spinCount == 254)) := by
  have hspin : (s.spinCount == 254) = decide (s.spinCount.toNat = 254) := by
    rw [Bool.eq_iff_iff]; simp [BitVec.toNat_eq]
  rw [hspin]
  cases h with
  | count _ _ hc => simp [hc]
  | saturate _ hl hc => simp [hl, hc]
  | skip _ hl | append _ hl => simp [hl]
  | idle h | lowHold h | lowEnd h | highHold h | highEnd h | accept h | retry h | assemble h => simp [hp] at h

theorem MicroEffect.stAbort_of_not_sampling (hp : s.phase ≠ Phase.sampling) : AbortClearedByAttemptStart s u := by
  unfold AbortClearedByAttemptStart
  cases h with
  | count h | saturate h | skip h | append h => exact absurd h hp
  | idle h | lowHold h | lowEnd h | highHold h | highEnd h | accept h | retry h | assemble h => simp [h]
end

/-! ## Accepted commands -/

/-- What the steps that accept a command have in common (44_session.md R151, R153 to R155). -/
structure AcceptedEffect (s t : State) : Prop where
  idle : s.phase = Phase.uninit ∨ s.phase = Phase.ready
  record : SameRecord s t
  verdict : SameVerdict s t
  abort : AbortClearedByAttemptStart s t
  rdValid : t.rdValid = false
  cmdReject : t.cmdReject = false

/-- A step that is no reset accepts a command, or it writes the pulses and runs the micro-operation of its phase. -/
theorem step_accepts_or_polls {s t : State} (hr : s.port.rst = false) (hs : step s = .next t) :
    (s.accepts ∧ AcceptedEffect s t) ∨ (¬ s.accepts ∧ ∃ u, MicroEffect s.polled u ∧ t = u.advance) := by
  have same : SameRecord s s ∧ SameVerdict s s := by simp [SameRecord, SameVerdict]
  rcases step_effect hr hs with ⟨hc, hp, rfl⟩ | ⟨f, hc, hp, rfl⟩ | ⟨hc, hp, rfl⟩ | h
  · refine .inl ⟨.inl ⟨hc, hp⟩, ⟨.inl hp, same.1, same.2, ?_, rfl, rfl⟩⟩
    cases s.port.initOk <;> simp [AbortClearedByAttemptStart]
  · refine .inl ⟨.inr ⟨?_, hp⟩, ⟨.inr hp, same.1, same.2, ?_, rfl, rfl⟩⟩
    · cases f <;> simp [hc]
    · simp [AbortClearedByAttemptStart, hp]
  · exact .inl ⟨.inr ⟨by simp [hc], hp⟩,
      ⟨.inr hp, same.1, same.2, by simp [AbortClearedByAttemptStart], rfl, rfl⟩⟩
  · exact .inr h

/-! ## The verdict -/

theorem shortFrame_iff (s : State) : s.shortFrame = true ↔ s.bitCount.toNat < 40 := by
  simp [State.shortFrame]

theorem badChecksum_iff {s : State} {f0 f1 f2 f3 f4 : Byte} (h : s.frameBytes = [f0, f1, f2, f3, f4]) :
    s.badChecksum = true ↔ f4.toNat ≠ (f0.toNat + f1.toNat + f2.toNat + f3.toNat) % 256 := by
  simp only [State.frameBytes, List.cons.injEq] at h
  obtain ⟨rfl, rfl, rfl, rfl, rfl, -⟩ := h
  simp [State.badChecksum, checksum, BitVec.toNat_eq]

/-- The two tests of `VALIDATE` make up `Valid` (42_validator.md R126, R128). -/
theorem valid_eq {s : State} {f0 f1 f2 f3 f4 : Byte} (h : s.frameBytes = [f0, f1, f2, f3, f4]) :
    valid f0 f1 f2 f3 f4 s.bitCount.toNat = (!s.shortFrame && !s.badChecksum) := by
  simp only [State.frameBytes, List.cons.injEq] at h
  obtain ⟨rfl, rfl, rfl, rfl, rfl, -⟩ := h
  rw [valid, State.shortFrame, State.badChecksum, bne, Bool.not_not, ← decide_not]
  simp only [Nat.not_lt, ge_iff_le]

/-! ## The status port -/

/-- Eight levels side by side, the first one on top. -/
theorem eightBits_getLsbD (b7 b6 b5 b4 b3 b2 b1 b0 : Bool) :
    let v := BitVec.ofBool b7 ++ BitVec.ofBool b6 ++ BitVec.ofBool b5 ++ BitVec.ofBool b4 ++
      BitVec.ofBool b3 ++ BitVec.ofBool b2 ++ BitVec.ofBool b1 ++ BitVec.ofBool b0
    v.getLsbD 0 = b0 ∧ v.getLsbD 1 = b1 ∧ v.getLsbD 2 = b2 ∧ v.getLsbD 3 = b3 ∧
      v.getLsbD 4 = b4 ∧ v.getLsbD 5 = b5 ∧ v.getLsbD 6 = b6 ∧ v.getLsbD 7 = b7 := by
  simp only [BitVec.getLsbD_append]
  simp

theorem busy_eq (p : PhaseCode) : busy p = decide (p = Phase.hsLow ∨ p = Phase.hsHigh ∨ p = Phase.sampling ∨
    p = Phase.validate ∨ p = Phase.assemble) := by
  simp [busy, Bool.or_assoc, beq_eq_decide]

end Sys2Proof.Machine
end

section
/-! SUPPORT. The obligations of 10_state.md. -/

namespace Sys2Proof.Machine

/-- Settles O55: the invariant contains R30 and holds in every reachable state. -/
theorem reachableStatesKeepR30 : Obligations.ReachableStatesKeepR30 :=
  fun _ _ _ _ h => (reachable_inv h).r30

/-- Settles O56: the invariant contains R31 and holds in every reachable state. -/
theorem reachableStatesKeepR31 : Obligations.ReachableStatesKeepR31 :=
  fun _ _ _ _ h => (reachable_inv h).r31

/-- Settles O38: the step is flag-blind, and each step writes the flags as its accepted command or its micro-operation does. -/
theorem flagWrites : Obligations.FlagWrites := by
  refine ⟨fun s t a b c d hs => ?_, fun s t hr hs => ?_⟩
  · obtain ⟨u, hu, he⟩ := step_of_eraseFlags_eq (s := s)
      (s' := { s with stFresh := a, stShort := b, stCsum := c, stAbort := d }) rfl hs
    exact ⟨u, hu, eq_of_eraseFlags_eq he⟩
  · rcases step_accepts_or_polls hr hs with ⟨-, h⟩ | ⟨-, u, hu, rfl⟩
    · have hv : s.phase ≠ Phase.validate := by rcases h.idle with h | h <;> simp [h]
      have hsam : s.phase ≠ Phase.sampling := by rcases h.idle with h | h <;> simp [h]
      exact ⟨fun h => absurd h hv, fun _ => h.verdict, fun h => absurd h hsam, fun _ => h.abort.cleared,
        fun _ => h.abort.kept⟩
    · refine ⟨fun hp f0 f1 f2 f3 f4 hf => ?_, fun hp => hu.sameVerdict hp, fun hp => hu.stAbort_of_sampling hp,
        fun hp => (hu.stAbort_of_not_sampling hp).cleared, fun hp => (hu.stAbort_of_not_sampling hp).kept⟩
      obtain ⟨hshort, hbad, hfresh⟩ := hu.verdict hp
      refine ⟨?_, ?_, ?_, ?_⟩
      · rw [advance_stShort, hshort]; exact shortFrame_iff s
      · rw [advance_stCsum, hbad]; exact badChecksum_iff hf
      · rw [advance_stFresh, hfresh, valid_eq hf]; rfl
      · rw [advance_stFresh, advance_stShort, advance_stCsum, hfresh, hshort, hbad]; simp

/-- Settles O45: only the micro-operation of `ASSEMBLE` writes the record and `rd_valid`, and only a refusal writes `cmd_reject`. -/
theorem recordAndPulseWrites : Obligations.RecordAndPulseWrites := by
  intro s t hr hs
  rcases step_accepts_or_polls hr hs with ⟨ha, h⟩ | ⟨ha, u, hu, rfl⟩
  · have hp : s.phase ≠ Phase.assemble := by rcases h.idle with h | h <;> simp [h]
    refine ⟨fun _ => h.record, fun h => absurd h hp, by simp [h.rdValid, hp], ?_⟩
    have : ¬ (t.cmdReject = true) := by simp [h.cmdReject]
    refine iff_of_false this fun ⟨_, hi, hc⟩ => ha.elim hi hc
  · refine ⟨fun hp => hu.sameRecord hp, fun hp => ?_, ?_, ?_⟩
    · rw [hu.eq_of_assemble hp]
      exact ⟨rfl, rfl, rfl, rfl, rfl⟩
    · simp [hu.rdValid_eq]
    · rw [advance_cmdReject, hu.cmdReject_eq, polled_cmdReject, decide_eq_true_eq]
      exact (and_iff_left (not_or.1 ha)).symm

/-- Settles O8: the reset state, register by register. -/
theorem resetValues : Obligations.ResetValues :=
  ⟨read_nil, rfl, rfl, rfl, rfl, rfl, rfl, rfl, rfl, rfl, rfl, rfl, rfl, rfl, rfl, rfl, rfl, rfl, rfl, rfl, rfl⟩

/-- Settles O46: `status_o` is its eight bits side by side, and `busy` is a disjunction of the busy phases. -/
theorem statusPortBits : Obligations.StatusPortBits := by
  intro s
  obtain ⟨h0, h1, h2, h3, h4, h5, h6, h7⟩ := eightBits_getLsbD (s.phase == Phase.closed) (s.phase == Phase.fatal)
    s.stCsum s.stShort s.stAbort s.stFresh (busy s.phase) (s.phase == Phase.ready)
  exact ⟨h0, h1.trans (busy_eq s.phase), h2, h3, h4, h5, h6, h7⟩

end Sys2Proof.Machine
end

section
/-! SUPPORT. Runs and their ports, the two holds of the handshake (44_session.md R157, R158), the bits of an appended byte
(41_decoder.md R115), and the phase codes that a step writes. -/

namespace Sys2Proof.Machine

/-! ## The ports of a run -/

theorem MicroEffect.inputs_eq {s u : State} (h : MicroEffect s u) : u.inputs = s.inputs := by cases h <;> rfl

theorem MicroEffect.draws_eq {s u : State} (h : MicroEffect s u) : u.draws = s.draws := by cases h <;> rfl

/-- Every step takes its own ports off and leaves the later ones. -/
theorem step_portAt {s t : State} (hs : step s = .next t) (i : Nat) : t.portAt i = s.portAt (i + 1) := by
  rw [← advance_portAt]
  cases hr : s.port.rst with
  | true =>
    rw [step_of_reset hr] at hs
    cases hs
    rfl
  | false =>
    rcases step_effect hr hs with ⟨-, -, rfl⟩ | ⟨f, -, -, rfl⟩ | ⟨-, -, rfl⟩ | ⟨-, u, hu, rfl⟩
    · rfl
    · rfl
    · rfl
    · exact portAt_congr (congrArg List.tail hu.inputs_eq) (congrArg (· + 1) hu.draws_eq) i

/-- After `n` steps the ports of the step `n` steps from now come. -/
theorem steps_portAt {n : Nat} {s t : State} (hs : steps n s = .next t) (i : Nat) :
    t.portAt i = s.portAt (n + i) := by
  induction n generalizing s with
  | zero => cases hs; rw [Nat.zero_add]
  | succ n ih =>
    rw [steps_succ, andThen_eq_next] at hs
    obtain ⟨u, hu, ht⟩ := hs
    rw [ih ht, step_portAt hu, Nat.add_right_comm]

/-! ## Steps in which no command can be accepted -/

/-- Commands are accepted in `UNINIT` and `READY` only (44_session.md R151). -/
theorem not_accepts_of_phase {s : State} (hu : s.phase ≠ Phase.uninit) (hr : s.phase ≠ Phase.ready) : ¬ s.accepts := by
  rintro (⟨-, hp⟩ | ⟨-, hp⟩)
  · exact hu hp
  · exact hr hp

/-- A step from any other phase is the micro-operation of the phase, whatever command is presented. -/
theorem step_of_micro {s u : State} (hrst : s.port.rst = false) (hu : s.phase ≠ Phase.uninit) (hr : s.phase ≠ Phase.ready)
    (he : exec (decodePhase s.phase) s.polled = .next u) : step s = .next u.advance := by
  rw [step_of_not_accepts hrst (not_accepts_of_phase hu hr), he, andThen_next]

/-! ## The handshake's micro-operations -/

/-- The last step of the low hold (44_session.md R157). -/
theorem exec_hsLow_last {s : State} (h : s.hsCount.toNat + 1 = 18000) :
    exec .hsLow s = .next { s with lineOut := Level.high, hsCount := 0, phase := Phase.hsHigh } := if_pos h

/-- Every earlier step of the low hold counts (44_session.md R157). -/
theorem exec_hsLow_hold {s : State} (h : s.hsCount.toNat + 1 ≠ 18000) :
    exec .hsLow s = .next { s with hsCount := writeHs s.draws (s.hsCount.toNat + 1) } := if_neg h

/-- The last step of the high hold (44_session.md R158). -/
theorem exec_hsHigh_last {s : State} (h : s.hsCount.toNat + 1 = 40) :
    exec .hsHigh s = .next { s with lineOe := false, hsCount := 0, phase := Phase.sampling } := if_pos h

/-- Every earlier step of the high hold counts (44_session.md R158). -/
theorem exec_hsHigh_hold {s : State} (h : s.hsCount.toNat + 1 ≠ 40) :
    exec .hsHigh s = .next { s with hsCount := writeHs s.draws (s.hsCount.toNat + 1) } := if_neg h

/-! ## The handshake as a run -/

/-- Where the handshake stands `k` steps after an attempt start (30_encoding.md R66). -/
structure State.InHandshake (t : State) (k : Nat) : Prop where
  low : k < 18000 → t.phase = Phase.hsLow ∧ t.hsCount.toNat = k ∧ t.lineOe = true ∧ t.lineOut = Level.low
  high : 18000 ≤ k → k < 18040 →
    t.phase = Phase.hsHigh ∧ t.hsCount.toNat = k - 18000 ∧ t.lineOe = true ∧ t.lineOut = Level.high
  released : k = 18040 → t.phase = Phase.sampling ∧ t.hsCount = 0 ∧ t.lineOe = false

/-- The registers of the sampling pass and the frame are the same in two states. -/
structure SameSampling (s t : State) : Prop where
  lastLevel : t.lastLevel = s.lastLevel
  spinCount : t.spinCount = s.spinCount
  tIndex : t.tIndex = s.tIndex
  bitCount : t.bitCount = s.bitCount
  frame : t.frame = s.frame

theorem SameSampling.refl (s : State) : SameSampling s s := ⟨rfl, rfl, rfl, rfl, rfl⟩

theorem SameSampling.trans {s t u : State} (h : SameSampling s t) (h' : SameSampling t u) : SameSampling s u :=
  ⟨h'.lastLevel.trans h.lastLevel, h'.spinCount.trans h.spinCount, h'.tIndex.trans h.tIndex,
    h'.bitCount.trans h.bitCount, h'.frame.trans h.frame⟩

/-- One step of the handshake: a hold goes on or gives way to what follows it. -/
theorem handshake_step {t : State} {k : Nat} (h : t.InHandshake k) (hk : k < 18040)
    (hrst : t.port.rst = false) : ∃ u, step t = .next u ∧ u.InHandshake (k + 1) ∧ SameSampling t u := by
  rcases Nat.lt_or_ge k 18000 with hlow | hge
  · obtain ⟨hp, hn, hoe, hout⟩ := h.low hlow
    have hstep := fun u => step_of_micro (u := u) hrst (by simp [hp]) (by simp [hp])
    rw [hp] at hstep
    by_cases hlast : t.hsCount.toNat + 1 = 18000
    · refine ⟨_, hstep _ (exec_hsLow_last hlast), ⟨by omega, fun _ _ => ⟨rfl, ?_, hoe, rfl⟩, by omega⟩,
        ⟨rfl, rfl, rfl, rfl, rfl⟩⟩
      change 0 = k + 1 - 18000
      omega
    · refine ⟨_, hstep _ (exec_hsLow_hold hlast), ⟨fun _ => ⟨hp, ?_, hoe, hout⟩, by omega, by omega⟩,
        ⟨rfl, rfl, rfl, rfl, rfl⟩⟩
      exact (writeHs_toNat _ (show t.hsCount.toNat + 1 < 32768 by omega)).trans (by omega)
  · obtain ⟨hp, hn, hoe, hout⟩ := h.high hge hk
    have hstep := fun u => step_of_micro (u := u) hrst (by simp [hp]) (by simp [hp])
    rw [hp] at hstep
    by_cases hlast : t.hsCount.toNat + 1 = 40
    · exact ⟨_, hstep _ (exec_hsHigh_last hlast), ⟨by omega, by omega, fun _ => ⟨rfl, rfl, rfl⟩⟩,
        ⟨rfl, rfl, rfl, rfl, rfl⟩⟩
    · refine ⟨_, hstep _ (exec_hsHigh_hold hlast), ⟨by omega, fun _ _ => ⟨hp, ?_, hoe, hout⟩, by omega⟩,
        ⟨rfl, rfl, rfl, rfl, rfl⟩⟩
      exact (writeHs_toNat _ (show t.hsCount.toNat + 1 < 32768 by omega)).trans (by omega)

/-- The handshake from its first step on, for as long as no reset comes. -/
theorem handshake_run {s : State} (h : s.InHandshake 0) {k : Nat} (hk : k ≤ 18040)
    (hrst : ∀ i < k, (s.portAt i).rst = false) :
    ∃ t, steps k s = .next t ∧ t.InHandshake k ∧ SameSampling s t := by
  induction k with
  | zero => exact ⟨s, rfl, h, .refl s⟩
  | succ k ih =>
    obtain ⟨t, ht, hat, hsame⟩ := ih (by omega) fun i hi => hrst i (by omega)
    have hport : t.port.rst = false := by
      rw [State.port, steps_portAt ht]
      exact hrst k (by omega)
    obtain ⟨u, hu, hau, hsame'⟩ := handshake_step hat hk hport
    exact ⟨u, by rw [steps_last, ht, andThen_next, hu], hau, hsame.trans hsame'⟩

/-! ## The bits of an appended byte -/

/-- The appended bit is bit 0. -/
@[simp] theorem shiftIn_getLsbD_zero (old : Byte) (b : Bool) : (shiftIn old b).getLsbD 0 = b := by
  simp [shiftIn]

/-- The bits before it move up by one, and the topmost is lost. -/
@[simp] theorem shiftIn_getLsbD_succ (old : Byte) (b : Bool) (j : Nat) :
    (shiftIn old b).getLsbD (j + 1) = (decide (j + 1 < 8) && old.getLsbD j) := by
  simp [shiftIn]

/-- At most eight appended bits stand right-aligned, the last one as bit 0 (30_encoding.md R74). -/
theorem foldl_shiftIn_getLsbD {bits : List Bool} (h : bits.length ≤ 8) (j : Nat) :
    (bits.foldl shiftIn 0).getLsbD j = bits.reverse.getD j false := by
  induction bits using List.reverseRecOn generalizing j with
  | nil => simp
  | append_singleton bits b ih =>
    rw [List.length_append, List.length_singleton] at h
    rw [List.foldl_concat, List.reverse_concat]
    cases j with
    | zero => rw [shiftIn_getLsbD_zero, List.getD_cons_zero]
    | succ j =>
      rw [shiftIn_getLsbD_succ, ih (by omega), List.getD_cons_succ]
      by_cases hj : j + 1 < 8
      · rw [decide_eq_true hj, Bool.true_and]
      · rw [decide_eq_false hj, Bool.false_and, List.getD_eq_default _ _ (by rw [List.length_reverse]; omega)]

/-! ## The phase codes that a step writes -/

theorem MicroEffect.phase_le {s u : State} (h : MicroEffect s u) : u.phase.toNat ≤ 8 := by
  cases h with
  | idle h => rcases h with h | h | h | h <;> simp [h]
  | lowHold h | highHold h | count h => simp [h]
  | skip h | append h => dsimp only; split <;> simp [h]
  | lowEnd | highEnd | saturate | accept | retry | assemble => simp

theorem step_phase_le {s t : State} (hs : step s = .next t) : t.phase.toNat ≤ 8 := by
  cases hr : s.port.rst with
  | true =>
    rw [step_of_reset hr] at hs
    cases hs
    simp [State.reset]
  | false =>
    rcases step_effect hr hs with ⟨-, -, rfl⟩ | ⟨f, -, -, rfl⟩ | ⟨-, -, rfl⟩ | ⟨-, u, hu, rfl⟩
    · cases s.port.initOk <;> simp
    · simp
    · simp
    · exact hu.phase_le

/-- A step from a reserved phase code stops the model, whatever command is presented (30_encoding.md R65). -/
theorem step_of_reservedPhase {s : State} (hrst : s.port.rst = false) (hp : 9 ≤ s.phase.toNat) :
    step s = .fault (.reservedPhase s.phase) := by
  have ha : ¬ s.accepts := not_accepts_of_phase (fun h => by simp [h] at hp) (fun h => by simp [h] at hp)
  rw [step_of_not_accepts hrst ha, exec_reservedPhase hp, andThen_fault]

/-! ## The command of a step -/

theorem command_of_valid {s : State} (h : s.port.cmdValid = true) : s.command = s.port.cmd := if_pos h

theorem command_of_not_valid {s : State} (h : s.port.cmdValid = false) : s.command = 0b000#3 :=
  if_neg (by simp [h])

end Sys2Proof.Machine
end

section
/-! SUPPORT. The obligations of 30_encoding.md. -/

namespace Sys2Proof.Machine

/-- Settles O19: the run of the handshake, read off at step `k`. -/
theorem handshakeWaveform : Obligations.HandshakeWaveform := by
  intro s k hp hc hoe hout hk hrst
  have hstart : s.InHandshake 0 := ⟨fun _ => ⟨hp, by rw [hc]; rfl, hoe, hout⟩, by omega, by omega⟩
  obtain ⟨t, ht, hat, hsame⟩ := handshake_run hstart hk hrst
  exact ⟨t, ht, hat.low, hat.high, hat.released,
    hsame.lastLevel, hsame.spinCount, hsame.tIndex, hsame.bitCount, hsame.frame⟩

/-- Settles O32: each append moves the earlier bits up by one. -/
theorem appendedBitsStandRightAligned : Obligations.AppendedBitsStandRightAligned :=
  fun _ j h => foldl_shiftIn_getLsbD h j

/-- Settles O51: no command is accepted in a reserved phase, and what a step writes to `phase` is a named code. -/
theorem reservedPhaseCodesFault : Obligations.ReservedPhaseCodesFault :=
  ⟨fun _ => ⟨rfl, rfl, rfl, rfl, rfl, rfl, rfl⟩, fun _ => step_of_reservedPhase, fun _ _ => step_phase_le⟩

/-- Settles O3: the eight rows by evaluation, and the two levels of `cmd_valid`. -/
theorem commandMapIsComplete : Obligations.CommandMapIsComplete :=
  ⟨rfl, rfl, rfl, rfl, rfl, rfl, rfl, rfl, fun _ => command_of_valid, fun _ h => by rw [command_of_not_valid h]; rfl⟩

/-- Settles O4: the nine rows by evaluation, and the order of the two operations of a step. -/
theorem phaseSelectsTheMicroOperation : Obligations.PhaseSelectsTheMicroOperation := by
  refine ⟨rfl, rfl, rfl, rfl, rfl, rfl, rfl, rfl, rfl, fun s t hrst ht => ?_⟩
  rw [step_of_no_reset hrst, runOperations, ht, andThen_next]

/-- Settles O11: the three reserved words decode to operations whose one effect is the refusal. -/
theorem reservedCommandsAreRefused : Obligations.ReservedCommandsAreRefused :=
  fun _ => ⟨rfl, rfl, rfl, rfl, rfl, rfl⟩

end Sys2Proof.Machine
end

section
/-! SUPPORT. `SAMPLE` and `SamplePass` case by case (40_sampler.md R92 to R96), and what every pass keeps (R97, R99). -/

namespace Sys2Proof.Machine

/-! ## `SAMPLE` case by case -/

theorem writeSpin_succ (d : Nat) {n : BitVec 8} (h : n.toNat < 255) : writeSpin d (n.toNat + 1) = n + 1 :=
  BitVec.eq_of_toNat_eq ((writeSpin_toNat d (by omega)).trans (by bv_omega))

theorem writeTIndex_succ (d : Nat) {t : BitVec 7} (h : t.toNat < 127) : writeTIndex d (t.toNat + 1) = t + 1 :=
  BitVec.eq_of_toNat_eq ((writeTIndex_toNat d (by omega)).trans (by bv_omega))

theorem exec_sample_count {s : State} (hl : s.port.lineIn = s.lastLevel) (hs : s.spinCount.toNat < 254) :
    exec .sample s = .next { s with spinCount := s.spinCount + 1 } := by
  rw [exec_sample_same hl]
  rcases sampleSame_cases s with ⟨hc, -⟩ | ⟨-, he⟩
  · omega
  · rw [he, writeSpin_succ _ (by omega)]

theorem exec_sample_saturate {s : State} (hl : s.port.lineIn = s.lastLevel) (hs : s.spinCount.toNat = 254) :
    exec .sample s = .next { s with spinCount := 255, stAbort := true, phase := Phase.validate } := by
  rw [exec_sample_same hl]
  rcases sampleSame_cases s with ⟨-, he⟩ | ⟨hc, -⟩
  · rw [he]
  · exact absurd hs hc

/-- The transition case, with what the decoder's step has written (40_sampler.md R93, R95). -/
theorem exec_sample_turn {s : State} {m : Memory} {bc : BitVec 6} (hl : s.port.lineIn ≠ s.lastLevel)
    (ht : s.tIndex.toNat < 127)
    (hd : decodeStep s.tIndex.toNat s.spinCount.toNat s.frame s.bitCount = .ok (m, bc)) :
    exec .sample s = .next { s with
      frame := m, bitCount := bc, spinCount := 0, lastLevel := s.port.lineIn, tIndex := s.tIndex + 1,
      phase := if s.tIndex = 82 then Phase.validate else s.phase } := by
  have hcap : s.tIndex.toNat + 1 = 83 ↔ s.tIndex = 82 := by bv_omega
  rw [exec_sample_transition hl]
  rcases sampleTransition_cases s with ⟨m', bc', hd', he⟩ | ⟨r, hd', -⟩ <;> rw [hd] at hd' <;> cases hd'
  rw [he, writeTIndex_succ _ ht]
  simp only [hcap]

/-- The decoder's step at an index that carries no bit (41_decoder.md R112, R113). -/
theorem decodeStep_skip {i : Nat} (h : ¬ (4 ≤ i ∧ i % 2 = 0)) (d : Nat) (m : Memory) (bc : BitVec 6) :
    decodeStep i d m bc = .ok (m, bc) :=
  if_neg (by rwa [classified_iff])

/-- The decoder's step at an index that carries a bit (41_decoder.md R114 to R116). -/
theorem decodeStep_append {i : Nat} {bc : BitVec 6} (h : 4 ≤ i ∧ i % 2 = 0) (hb : bc.toNat < 40) (d : Nat) (m : Memory) :
    decodeStep i d m bc =
      .ok (Memory.write m (bc.toNat / 8) (shiftIn (Memory.read m (bc.toNat / 8)) (classify d)), bc + 1) := by
  rw [← shiftRight_three]
  rcases bitAppend_spec (classify d) m bc with ⟨-, hk⟩ | ⟨hge, -⟩
  · exact (if_pos ((classified_iff i).2 h)).trans hk
  · omega

theorem classify_toNat (d : Nat) : (classify d).toNat = if 30 < d then 1 else 0 := by
  by_cases h : 30 < d <;> simp [classify, h]

/-- The appended byte, written as a number (41_decoder.md R114, R115). -/
theorem shiftIn_classify_toNat (old : Byte) (d : Nat) :
    (shiftIn old (classify d)).toNat = (2 * old.toNat + if 30 < d then 1 else 0) % 256 := by
  rw [shiftIn_toNat, classify_toNat]

/-- The appended byte as `Decode` writes it (41_decoder.md R110). -/
theorem ofNat_eq_shiftIn (old : Byte) (d : Nat) :
    BitVec.ofNat 8 (2 * old.toNat + if d > 30 then 1 else 0) = shiftIn old (classify d) :=
  BitVec.eq_of_toNat_eq (by rw [BitVec.toNat_ofNat, shiftIn_classify_toNat])

/-- `Valid` is false of fewer than 40 bits, whatever the frame (42_validator.md R126). -/
theorem valid_of_short {n : Nat} (h : n < 40) (f0 f1 f2 f3 f4 : Byte) : valid f0 f1 f2 f3 f4 n = false := by
  rw [valid, decide_eq_false (by omega), Bool.false_and]

/-! ## `SamplePass` sample by sample -/

theorem samplePassFrom_same {spin : Nat} (h : spin ≠ 254) (last : Level) (obs : List Observation) (k : Nat)
    (xs : List Level) :
    samplePassFrom last spin obs k (last :: xs) = samplePassFrom last (spin + 1) obs (k + 1) xs := by
  rw [samplePassFrom, if_pos rfl, if_neg (by omega)]

theorem samplePassFrom_saturate (last : Level) (obs : List Observation) (k : Nat) (xs : List Level) :
    samplePassFrom last 254 obs k (last :: xs) = some ⟨obs, true, k + 1⟩ := by
  rw [samplePassFrom, if_pos rfl, if_pos rfl]

theorem samplePassFrom_turn {x last : Level} (h : x ≠ last) (spin : Nat) (obs : List Observation) (k : Nat)
    (xs : List Level) :
    samplePassFrom last spin obs k (x :: xs) =
      if obs.length = 82 then some ⟨obs ++ [⟨spin, x⟩], false, k + 1⟩
      else samplePassFrom x 0 (obs ++ [⟨spin, x⟩]) (k + 1) xs := by
  simp [samplePassFrom, h, Config.maxTimings]

/-- Samples of the same level are counted, as long as they do not saturate (40_sampler.md R92). -/
theorem samplePassFrom_replicate {spin n : Nat} (h : spin + n ≤ 254) (last : Level) (obs : List Observation) (k : Nat)
    (xs : List Level) :
    samplePassFrom last spin obs k (List.replicate n last ++ xs) = samplePassFrom last (spin + n) obs (k + n) xs := by
  induction n generalizing spin k with
  | zero => rfl
  | succ n ih =>
    rw [List.replicate_succ, List.cons_append, samplePassFrom_same (by omega), ih (by omega)]
    congr 1 <;> omega

/-! ## What every pass keeps -/

/-- Observations as a pass emits them: levels in turn, low first, and no duration above 254 (40_sampler.md R97,
30_encoding.md R70). -/
def Alternating (obs : List Observation) : Prop :=
  ∀ (i : Nat) (o : Observation), obs[i]? = some o → (o.level = Level.high ↔ (i + 1) % 2 = 0) ∧ o.duration ≤ 254

theorem alternating_concat {obs : List Observation} (h : Alternating obs) {o : Observation}
    (hl : o.level = Level.high ↔ (obs.length + 1) % 2 = 0) (hd : o.duration ≤ 254) : Alternating (obs ++ [o]) := by
  intro i p hp
  rcases Nat.lt_trichotomy i obs.length with hi | rfl | hi
  · rw [List.getElem?_append_left hi] at hp
    exact h i p hp
  · rw [List.getElem?_concat_length] at hp
    cases hp
    exact ⟨hl, hd⟩
  · rw [List.getElem?_eq_none (by simp; omega)] at hp
    cases hp

/-- Where a pass in progress stands: the arguments of the loop of `SamplePass` after `k` samples. -/
structure PassOpen (last : Level) (spin : Nat) (obs : List Observation) (k : Nat) : Prop where
  alternating : Alternating obs
  level : last = Level.high ↔ obs.length % 2 = 0
  spin_le : spin ≤ 254
  length_le : obs.length ≤ 82
  spin_le_consumed : spin ≤ k
  length_le_consumed : obs.length ≤ k
  consumed_le : k ≤ 255 * obs.length + spin

theorem passOpen_start : PassOpen Level.high 0 [] 0 := by
  constructor <;> simp [Alternating]

/-- What a pass returns, in either of its two ways to end (40_sampler.md R97 to R99). -/
structure PassOver (r : PassResult) : Prop where
  alternating : Alternating r.obs
  capped : r.aborted = false → r.obs.length = 83 ∧ 83 ≤ r.consumed
  saturated : r.aborted = true → r.obs.length ≤ 82 ∧ 255 ≤ r.consumed
  consumed_le : r.consumed ≤ 21165

section
variable {last x : Level} {spin k : Nat} {obs : List Observation} (h : PassOpen last spin obs k)
include h

theorem PassOpen.count (hs : spin ≠ 254) : PassOpen last (spin + 1) obs (k + 1) := by
  obtain ⟨ha, hl, hspin, hlen, hsk, hlk, hk⟩ := h
  exact ⟨ha, hl, by omega, hlen, by omega, by omega, by omega⟩

theorem PassOpen.saturate (hs : spin = 254) : PassOver ⟨obs, true, k + 1⟩ := by
  obtain ⟨ha, -, -, hlen, hsk, -, hk⟩ := h
  exact ⟨ha, by simp, fun _ => ⟨hlen, by dsimp only; omega⟩, by dsimp only; omega⟩

theorem PassOpen.turn_alternating (hx : x ≠ last) : Alternating (obs ++ [⟨spin, x⟩]) :=
  alternating_concat h.alternating (transition_parity h.level hx) h.spin_le

theorem PassOpen.turn (hx : x ≠ last) (hc : obs.length ≠ 82) : PassOpen x 0 (obs ++ [⟨spin, x⟩]) (k + 1) := by
  have hlen : (obs ++ [Observation.mk spin x]).length = obs.length + 1 := List.length_append
  have ha := h.turn_alternating hx
  have hl := transition_parity h.level hx
  obtain ⟨-, -, hspin, hle, -, hlk, hk⟩ := h
  exact ⟨ha, by rwa [hlen], by omega, by omega, by omega, by omega, by omega⟩

theorem PassOpen.cap (hx : x ≠ last) (hc : obs.length = 82) : PassOver ⟨obs ++ [⟨spin, x⟩], false, k + 1⟩ := by
  have hlen : (obs ++ [Observation.mk spin x]).length = obs.length + 1 := List.length_append
  have ha := h.turn_alternating hx
  obtain ⟨-, -, hspin, -, -, hlk, hk⟩ := h
  exact ⟨ha, fun _ => ⟨by dsimp only; omega, by dsimp only; omega⟩, by simp, by dsimp only; omega⟩
end

/-- One sample of an open pass: the pass ends with it, or goes on (40_sampler.md R98). -/
theorem PassOpen.sample {last : Level} {spin k : Nat} {obs : List Observation} (h : PassOpen last spin obs k) (x : Level) :
    (∃ r, PassOver r ∧ r.consumed = k + 1 ∧ ∀ xs, samplePassFrom last spin obs k (x :: xs) = some r) ∨
    ∃ last' spin' obs', PassOpen last' spin' obs' (k + 1) ∧
      ∀ xs, samplePassFrom last spin obs k (x :: xs) = samplePassFrom last' spin' obs' (k + 1) xs := by
  by_cases hx : x = last
  · subst hx
    by_cases hs : spin = 254
    · exact .inl ⟨_, h.saturate hs, rfl, fun xs => by rw [hs, samplePassFrom_saturate]⟩
    · exact .inr ⟨_, _, _, h.count hs, fun xs => samplePassFrom_same hs _ _ _ xs⟩
  · by_cases hc : obs.length = 82
    · exact .inl ⟨_, h.cap hx hc, rfl, fun xs => by rw [samplePassFrom_turn hx, if_pos hc]⟩
    · exact .inr ⟨_, _, _, h.turn hx hc, fun xs => by rw [samplePassFrom_turn hx, if_neg hc]⟩

/-- What the rest of a pass returns. -/
theorem PassOpen.over {last : Level} {spin k : Nat} {obs : List Observation} (h : PassOpen last spin obs k)
    {xs : List Level} {r : PassResult} (hr : samplePassFrom last spin obs k xs = some r) :
    PassOver r ∧ r.consumed ≤ k + xs.length := by
  induction xs generalizing last spin obs k with
  | nil => cases hr
  | cons x xs ih =>
    rw [List.length_cons]
    rcases h.sample x with ⟨r', ho, hk, he⟩ | ⟨last', spin', obs', ho, he⟩ <;> rw [he] at hr
    · cases hr
      exact ⟨ho, by omega⟩
    · obtain ⟨hover, hk⟩ := ih ho hr
      exact ⟨hover, by omega⟩

/-- A pass does not outlast 21165 samples (40_sampler.md R99). -/
theorem PassOpen.terminates {last : Level} {spin k : Nat} {obs : List Observation} (h : PassOpen last spin obs k)
    {xs : List Level} (hxs : 21165 ≤ k + xs.length) : ∃ r, samplePassFrom last spin obs k xs = some r := by
  induction xs generalizing last spin obs k with
  | nil =>
    obtain ⟨-, -, hspin, hlen, -, -, hk⟩ := h
    rw [List.length_nil] at hxs
    omega
  | cons x xs ih =>
    rw [List.length_cons] at hxs
    rcases h.sample x with ⟨r, -, -, he⟩ | ⟨last', spin', obs', ho, he⟩ <;> rw [he]
    · exact ⟨r, rfl⟩
    · exact ih ho (by omega)

theorem passOver_of_samplePass {xs : List Level} {r : PassResult} (hr : samplePass xs = some r) :
    PassOver r ∧ r.consumed ≤ xs.length := by
  simpa using passOpen_start.over hr

/-- A line that changes at every sample ends the pass by the cap, in its shortest form (40_sampler.md R99). -/
theorem samplePass_changing_line :
    (samplePass ((List.range 83).map (fun i => i % 2 == 1))).map (fun r => (r.aborted, r.consumed)) =
      some (false, 83) := by
  decide +kernel

end Sys2Proof.Machine
end

section
/-! SUPPORT. The decoder, observation by observation (41_decoder.md R110, R117). -/

namespace Sys2Proof.Machine

/-- The five bytes of the frame space, `frame[0]` first. -/
def Memory.bytes (m : Memory) : List Byte :=
  [Memory.read m 0, Memory.read m 1, Memory.read m 2, Memory.read m 3, Memory.read m 4]

theorem frameBytes_eq (s : State) : s.frameBytes = Memory.bytes s.frame := rfl

theorem bytes_getElem? (m : Memory) {a : Nat} (h : a < 5) : (Memory.bytes m)[a]? = some (Memory.read m a) := by
  interval_cases a <;> rfl

/-- A write replaces the one byte at its address. -/
theorem bytes_write {m : Memory} (hm : Memory.wf m) {a : Nat} (h : a < 5) (v : Byte) :
    Memory.bytes (Memory.write m a v) = (Memory.bytes m).set a v := by
  have hread : ∀ b, Memory.read (Memory.write m a v) b = if b = a then v else Memory.read m b := by
    intro b
    split
    next hb => rw [hb, read_write_same m a v hm.1]
    next hb => exact read_write_other m v hb
  simp only [Memory.bytes, hread]
  interval_cases a <;> rfl

/-- `Decode` of a list in two parts. -/
theorem decodeFrom_append (i : Nat) (frame : List Byte) (n : Nat) (xs ys : List Observation) :
    decodeFrom i frame n (xs ++ ys) =
      (decodeFrom i frame n xs).bind fun p => decodeFrom (i + xs.length) p.1 p.2 ys := by
  induction xs generalizing i frame n with
  | nil => rfl
  | cons o xs ih =>
    have hi : i + (xs.length + 1) = i + 1 + xs.length := by omega
    rw [List.cons_append, List.length_cons, hi, decodeFrom, decodeFrom]
    split
    · cases frame[n / 8]? with
      | none => rfl
      | some old => exact ih _ _ _
    · exact ih _ _ _

/-- The frame space and `bitCount` hold `Decode` of the observations so far (41_decoder.md R117). -/
structure Decoded (obs : List Observation) (m : Memory) (bc : BitVec 6) : Prop where
  canonical : Memory.wf m
  decode : decodeObs obs = some (Memory.bytes m, bc.toNat)
  count : bc.toNat = (obs.length - 3) / 2

theorem decoded_nil : Decoded [] [] 0 := ⟨wf_nil, rfl, rfl⟩

/-- The decoder's step takes `Decode` of the observations so far to `Decode` of one more, up to the 84th. -/
theorem Decoded.step {obs : List Observation} {m : Memory} {bc : BitVec 6} (h : Decoded obs m bc)
    (hlen : obs.length < 84) (o : Observation) :
    ∃ m' bc', decodeStep obs.length o.duration m bc = .ok (m', bc') ∧ Decoded (obs ++ [o]) m' bc' := by
  obtain ⟨hm, hd, hn⟩ := h
  have hlen' : (obs ++ [o]).length = obs.length + 1 := List.length_append
  have happ : decodeObs (obs ++ [o]) = decodeFrom obs.length (Memory.bytes m) bc.toNat [o] := by
    rw [decodeObs, decodeFrom_append, ← decodeObs, hd, Option.bind_some, Nat.zero_add]
  by_cases hc : 4 ≤ obs.length ∧ obs.length % 2 = 0
  · have hb : bc.toNat < 40 := by omega
    have ha : bc.toNat / 8 < 5 := by omega
    have hbc : (bc + 1).toNat = bc.toNat + 1 := by bv_omega
    refine ⟨_, _, decodeStep_append hc hb _ _, write_wf hm ha, ?_, by omega⟩
    rw [happ, decodeFrom, if_pos hc, bytes_getElem? m ha, bytes_write hm ha, hbc, ← ofNat_eq_shiftIn]
    rfl
  · refine ⟨m, bc, decodeStep_skip hc _ _ _, hm, ?_, by omega⟩
    rw [happ, decodeFrom, if_neg hc, decodeFrom]

end Sys2Proof.Machine
end

section
/-! SUPPORT. The block's pass as a run of `SamplePass` (40_sampler.md R98). -/

namespace Sys2Proof.Machine

/-! ## One step of the pass -/

/-- A register that is neither the pass's own nor a pulse is kept over `n` steps, and `n` records of ports are read. -/
def KeptByPass (n : Nat) (s t : State) : Prop :=
  t = { s with
    frame := t.frame, bitCount := t.bitCount, tIndex := t.tIndex, lastLevel := t.lastLevel, spinCount := t.spinCount,
    stAbort := t.stAbort, phase := t.phase, rdValid := false, cmdReject := t.cmdReject,
    inputs := s.inputs.drop n, draws := s.draws + n }

theorem KeptByPass.trans {m n : Nat} {s t u : State} (h : KeptByPass m s t) (h' : KeptByPass n t u) :
    KeptByPass (n + m) s u := by
  have hu := congrArg (fun x : State => { x with
    frame := u.frame, bitCount := u.bitCount, tIndex := u.tIndex, lastLevel := u.lastLevel, spinCount := u.spinCount,
    stAbort := u.stAbort, phase := u.phase, rdValid := false, cmdReject := u.cmdReject,
    inputs := x.inputs.drop n, draws := x.draws + n }) h
  refine (Eq.trans h' hu).trans ?_
  simp only [List.drop_drop, Nat.add_assoc, Nat.add_comm m n]

theorem KeptByPass.inputs {n : Nat} {s t : State} (h : KeptByPass n s t) : t.inputs = s.inputs.drop n :=
  congrArg State.inputs h

theorem port_of_inputs_cons {s : State} {p : PortIn} {ps : List PortIn} (h : s.inputs = p :: ps) : s.port = p := by
  simp [State.port, State.portAt, portFrom, h]

/-- A step of `SAMPLING` is `SAMPLE`, whatever command is presented (44_session.md R151). -/
theorem step_of_sample {s u : State} (hp : s.phase = Phase.sampling) (hrst : s.port.rst = false)
    (he : exec .sample s.polled = .next u) : step s = .next u.advance :=
  step_of_micro hrst (by simp [hp]) (by simp [hp]) (by rw [hp]; exact he)

/-- The block in the middle of a pass: its registers hold the arguments of the loop of `SamplePass` and `Decode` of the
observations so far (40_sampler.md R98). -/
structure InPass (s : State) (last : Level) (spin : Nat) (obs : List Observation) : Prop where
  phase : s.phase = Phase.sampling
  lastLevel : s.lastLevel = last
  spinCount : s.spinCount.toNat = spin
  spin_le : spin ≤ 254
  tIndex : s.tIndex.toNat = obs.length
  length_le : obs.length ≤ 82
  stAbort : s.stAbort = false
  decoded : Decoded obs s.frame s.bitCount

/-- The block after a pass (40_sampler.md R98). -/
structure AfterPass (t : State) (obs : List Observation) (aborted : Bool) : Prop where
  phase : t.phase = Phase.validate
  tIndex : t.tIndex.toNat = obs.length
  stAbort : t.stAbort = aborted
  decoded : Decoded obs t.frame t.bitCount

section
variable {s : State} {last : Level} {spin : Nat} {obs : List Observation} (h : InPass s last spin obs)
  (hrst : s.port.rst = false)
include h hrst

theorem InPass.step_saturate (hl : s.port.lineIn = last) (hs : spin = 254) :
    ∃ t, step s = .next t ∧ KeptByPass 1 s t ∧ AfterPass t obs true := by
  have he := exec_sample_saturate (s := s.polled) (hl.trans h.lastLevel.symm) (h.spinCount.trans hs)
  exact ⟨_, step_of_sample h.phase hrst he, by rw [KeptByPass, List.drop_one]; rfl, rfl, h.tIndex, rfl, h.decoded⟩

theorem InPass.step_count (hl : s.port.lineIn = last) (hs : spin ≠ 254) :
    ∃ t, step s = .next t ∧ KeptByPass 1 s t ∧ InPass t last (spin + 1) obs := by
  obtain ⟨hp, hlast, hspin, hle, ht, hlen, ha, hd⟩ := h
  have hlt : s.spinCount.toNat < 254 := by omega
  have hsucc : (s.spinCount + 1).toNat = spin + 1 := by bv_omega
  have he := exec_sample_count (s := s.polled) (hl.trans hlast.symm) hlt
  exact ⟨_, step_of_sample hp hrst he, by rw [KeptByPass, List.drop_one]; rfl,
    hp, hlast, hsucc, by omega, ht, hlen, ha, hd⟩

theorem InPass.step_turn {x : Level} (hl : s.port.lineIn = x) (hx : x ≠ last) :
    ∃ t, step s = .next t ∧ KeptByPass 1 s t ∧
      (obs.length = 82 → AfterPass t (obs ++ [⟨spin, x⟩]) false) ∧
      (obs.length ≠ 82 → InPass t x 0 (obs ++ [⟨spin, x⟩])) := by
  obtain ⟨hp, hlast, hspin, hle, ht, hlen, ha, hd⟩ := h
  obtain ⟨m, bc, hdec, hd'⟩ := hd.step (by omega) ⟨spin, x⟩
  have hlen' : (obs ++ [Observation.mk spin x]).length = obs.length + 1 := List.length_append
  have hsucc : (s.tIndex + 1).toNat = (obs ++ [Observation.mk spin x]).length := by bv_omega
  have hcap : s.tIndex = 82 ↔ obs.length = 82 := by rw [← ht]; bv_omega
  rw [← ht, ← hspin] at hdec
  have he := exec_sample_turn (s := s.polled) (by simpa [hl, hlast] using hx) (show s.tIndex.toNat < 127 by omega) hdec
  refine ⟨_, step_of_sample hp hrst he, by rw [KeptByPass, List.drop_one]; rfl, fun hc => ?_, fun hc => ?_⟩
  · exact ⟨if_pos (hcap.2 hc), hsucc, ha, hd'⟩
  · exact ⟨(if_neg (mt hcap.1 hc)).trans hp, hl, rfl, by omega, hsucc, by omega, ha, hd'⟩

/-- One step of a pass of the block is one sample of `SamplePass`. -/
theorem InPass.step : ∃ t, Machine.step s = .next t ∧ KeptByPass 1 s t ∧
    ((∃ obs' aborted, AfterPass t obs' aborted ∧
      ∀ k xs, samplePassFrom last spin obs k (s.port.lineIn :: xs) = some ⟨obs', aborted, k + 1⟩) ∨
    ∃ last' spin' obs', InPass t last' spin' obs' ∧
      ∀ k xs, samplePassFrom last spin obs k (s.port.lineIn :: xs) = samplePassFrom last' spin' obs' (k + 1) xs) := by
  by_cases hl : s.port.lineIn = last
  · rw [hl]
    by_cases hs : spin = 254
    · obtain ⟨t, ht, hkept, ho⟩ := h.step_saturate hrst hl hs
      exact ⟨t, ht, hkept, .inl ⟨_, _, ho, fun k xs => by rw [hs, samplePassFrom_saturate]⟩⟩
    · obtain ⟨t, ht, hkept, ho⟩ := h.step_count hrst hl hs
      exact ⟨t, ht, hkept, .inr ⟨_, _, _, ho, fun k xs => samplePassFrom_same hs _ _ k xs⟩⟩
  · obtain ⟨t, ht, hkept, hcap, hturn⟩ := h.step_turn hrst rfl hl
    by_cases hc : obs.length = 82
    · exact ⟨t, ht, hkept, .inl ⟨_, _, hcap hc, fun k xs => by rw [samplePassFrom_turn hl, if_pos hc]⟩⟩
    · exact ⟨t, ht, hkept, .inr ⟨_, _, _, hturn hc, fun k xs => by rw [samplePassFrom_turn hl, if_neg hc]⟩⟩
end

/-! ## The run -/

/-- The rest of a pass as a run of `n` steps: `SAMPLING` until the last of them, then the pass is over with the result `r`. -/
structure PassRun (s : State) (n : Nat) (r : PassResult) : Prop where
  sampling : ∀ j < n, ∃ u, steps j s = .next u ∧ u.phase = Phase.sampling
  ends : ∃ t, steps n s = .next t ∧ KeptByPass n s t ∧ AfterPass t r.obs r.aborted

theorem passRun_last {s t : State} {r : PassResult} (hp : s.phase = Phase.sampling) (hs : step s = .next t)
    (hk : KeptByPass 1 s t) (ht : AfterPass t r.obs r.aborted) : PassRun s 1 r where
  sampling j hj := ⟨s, by rw [Nat.lt_one_iff.1 hj]; rfl, hp⟩
  ends := ⟨t, by rw [steps_succ, hs]; rfl, hk, ht⟩

theorem PassRun.cons {s u : State} {n : Nat} {r : PassResult} (hp : s.phase = Phase.sampling) (hs : step s = .next u)
    (hk : KeptByPass 1 s u) (h : PassRun u n r) : PassRun s (n + 1) r where
  sampling j hj := by
    cases j with
    | zero => exact ⟨s, rfl, hp⟩
    | succ j => simpa [steps_succ, hs] using h.sampling j (by omega)
  ends := by
    obtain ⟨t, ht, hkept, ho⟩ := h.ends
    exact ⟨t, by rw [steps_succ, hs]; exact ht, hk.trans hkept, ho⟩

/-- The block's pass computes what is left of `SamplePass` (40_sampler.md R98). -/
theorem InPass.run {ps : List PortIn} {s : State} {last : Level} {spin : Nat} {obs : List Observation} {k : Nat}
    {r : PassResult} (h : InPass s last spin obs) (hps : s.inputs = ps) (hrst : ∀ p ∈ ps, p.rst = false)
    (hr : samplePassFrom last spin obs k (ps.map (·.lineIn)) = some r) :
    ∃ n, r.consumed = k + n ∧ PassRun s n r := by
  induction ps generalizing s last spin obs k with
  | nil => cases hr
  | cons p ps ih =>
    have hport := port_of_inputs_cons hps
    obtain ⟨t, ht, hk, hcase⟩ := h.step (by rw [hport]; exact hrst p List.mem_cons_self)
    rw [hport] at hcase
    rw [List.map_cons] at hr
    rcases hcase with ⟨obs', aborted, ho, he⟩ | ⟨last', spin', obs', ho, he⟩ <;> rw [he] at hr
    · cases hr
      exact ⟨1, rfl, passRun_last h.phase ht hk ho⟩
    · obtain ⟨n, hn, hrun⟩ := ih ho (by rw [hk.inputs, hps, List.drop_one, List.tail_cons])
        (fun q hq => hrst q (List.mem_cons_of_mem _ hq)) hr
      exact ⟨n + 1, by omega, hrun.cons h.phase ht hk⟩

end Sys2Proof.Machine
end

section
/-! SUPPORT. The obligations of 40_sampler.md. -/

namespace Sys2Proof.Machine

/-- Settles O34: the registers hold the arguments of `SamplePass` and `Decode` of its observations at every step of the pass. -/
theorem blockPassIsSamplePass : Obligations.BlockPassIsSamplePass := by
  intro s r hp hl hs ht hb hf ha hrst hr
  have hstart : InPass s Level.high 0 [] :=
    ⟨hp, hl, by rw [hs]; rfl, by omega, by rw [ht]; rfl, by simp, ha, by rw [hf, hb]; exact decoded_nil⟩
  obtain ⟨n, hn, hrun⟩ := hstart.run rfl hrst hr
  rw [Nat.zero_add] at hn
  obtain ⟨t, hsteps, hkept, ho⟩ := hrun.ends
  rw [hn]
  exact ⟨hrun.sampling, t, _, _, hsteps, ho.phase, ho.tIndex, ho.stAbort, ho.decoded.decode, frameBytes_eq t, rfl, hkept⟩

/-- Settles O20: the two outcomes of `SAMPLE` on the same level. -/
theorem sampleSameLevelCounts : Obligations.SampleSameLevelCounts :=
  fun _ hl => ⟨exec_sample_count hl, exec_sample_saturate hl⟩

/-- Settles O21: an open pass has seen fewer than 83 transitions, so fewer than 40 bits. -/
theorem saturationAbortsThePass : Obligations.SaturationAbortsThePass := by
  intro s hi hp hl hs
  obtain ⟨-, ht, -⟩ := hi.passOpen hp
  have hb := hi.r31.bitCount_eq
  have hlt : s.bitCount.toNat < 40 := by omega
  exact ⟨_, exec_sample_saturate hl (by omega), rfl, hlt, Nat.le_of_lt_succ ht,
    fun f0 f1 f2 f3 f4 _ => valid_of_short hlt f0 f1 f2 f3 f4⟩

/-- Settles O22: the transition with the decoder's step at each kind of index. -/
theorem sampleTransitionDecodes : Obligations.SampleTransitionDecodes := by
  intro s hl ht hwf
  refine ⟨fun hc => exec_sample_turn hl ht (decodeStep_skip hc _ _ _), fun h4 h2 hb => ?_⟩
  refine ⟨_, exec_sample_turn hl ht (decodeStep_append ⟨h4, h2⟩ hb _ _),
    write_wf hwf (Nat.div_lt_of_lt_mul hb), fun a => ?_⟩
  rw [shiftRight_three]
  split
  next ha => rw [ha, read_write_same _ _ _ hwf.1, shiftIn_classify_toNat]
  next ha => rw [read_write_other _ _ ha]

/-- Settles O26: what every pass keeps, read off at its end. -/
theorem observationsAlternate : Obligations.ObservationsAlternate := by
  intro xs r hr
  obtain ⟨ho, hk⟩ := passOver_of_samplePass hr
  refine ⟨fun i o hio => ?_, fun h => (ho.capped h).1, fun h => (ho.saturated h).1, hk⟩
  obtain ⟨hl, hd⟩ := ho.alternating i o hio
  refine ⟨fun hi => ?_, fun hi => hl.2 (by omega), hd⟩
  exact Bool.eq_false_of_not_eq_true fun h => by have := hl.1 h; omega

/-- Settles O27: a pass that goes on counts at most 255 samples an observation. -/
theorem everyPassTerminates : Obligations.EveryPassTerminates := by
  refine ⟨fun xs hxs => ?_, ⟨(List.range 83).map (fun i => i % 2 == 1), ?_⟩, ⟨List.replicate 255 Level.high, ?_⟩⟩
  · obtain ⟨r, hr⟩ := passOpen_start.terminates (xs := xs) (by omega)
    have ho := (passOver_of_samplePass hr).1
    exact ⟨r, hr, ho.consumed_le, fun h => (ho.capped h).2, fun h => (ho.saturated h).2⟩
  · obtain ⟨r, hr, h⟩ := Option.map_eq_some_iff.1 samplePass_changing_line
    obtain ⟨ha, hk⟩ := Prod.mk.inj h
    exact ⟨r, hr, ha, hk⟩
  · rw [List.replicate_succ', samplePass, samplePassFrom_replicate (by omega)]
    exact ⟨_, samplePassFrom_saturate _ _ _ _, rfl, rfl⟩

/-- Settles O28: an interval of `n` samples is counted sample by sample, from its first or from its second one on. -/
theorem durationCountsSamples : Obligations.DurationCountsSamples := by
  refine ⟨fun n rest h1 hn => ?_, fun rest => samplePassFrom_turn (by decide) 0 [] 0 rest,
    fun x spin obs k n rest h1 hn hobs => ?_, by decide, by decide⟩
  · rw [samplePass, samplePassFrom_replicate (by omega), samplePassFrom_turn (by decide), Nat.zero_add]
    rfl
  · obtain ⟨n, rfl⟩ := Nat.exists_eq_succ_of_ne_zero (Nat.one_le_iff_ne_zero.1 h1)
    have hturn : (obs ++ [Observation.mk spin x]).length = 82 ↔ obs.length = 81 := by simp
    have hk : k + 1 + n + 1 = k + n.succ + 1 := by omega
    rw [List.replicate_succ, List.cons_append, samplePassFrom_turn (by simp), if_neg (by omega),
      samplePassFrom_replicate (by omega), samplePassFrom_turn (by simp), Nat.zero_add, hk, List.append_assoc]
    simp only [hturn]
    rfl

end Sys2Proof.Machine
end

section
/-! SUPPORT. `Decode` as a function of the durations it selects (41_decoder.md R112, R113), and the decoder's step folded over
a list of observations (41_decoder.md R117). -/

namespace Sys2Proof.Machine

/-- Observations that stand before index 4 leave the frame and the bit count (41_decoder.md R112). -/
theorem decodeFrom_of_le_four {i : Nat} {obs : List Observation} (h : i + obs.length ≤ 4) (frame : List Byte) (n : Nat) :
    decodeFrom i frame n obs = some (frame, n) := by
  induction obs generalizing i with
  | nil => rfl
  | cons o obs ih =>
    rw [List.length_cons] at h
    rw [decodeFrom, if_neg (by omega), ih (by omega)]

/-- Of an observation only the duration is read, and only at an even index from 4 on (41_decoder.md R113). -/
theorem decodeFrom_congr {i : Nat} {xs ys : List Observation} (hlen : xs.length = ys.length)
    (h : ∀ j, 4 ≤ i + j → (i + j) % 2 = 0 → xs[j]?.map (·.duration) = ys[j]?.map (·.duration))
    (frame : List Byte) (n : Nat) : decodeFrom i frame n xs = decodeFrom i frame n ys := by
  induction xs generalizing i ys frame n with
  | nil => rw [List.length_eq_zero_iff.1 hlen.symm]
  | cons x xs ih =>
    obtain ⟨y, ys, rfl⟩ := List.exists_cons_of_length_eq_add_one hlen.symm
    have hrest : ∀ frame n, decodeFrom (i + 1) frame n xs = decodeFrom (i + 1) frame n ys :=
      ih (Nat.succ.inj hlen) fun j h4 h2 => h (j + 1) (by omega) (by omega)
    rw [decodeFrom, decodeFrom]
    by_cases hc : 4 ≤ i ∧ i % 2 = 0
    · have hd : x.duration = y.duration := Option.some.inj (h 0 hc.1 hc.2)
      simp only [hd, hrest]
    · rw [if_neg hc, if_neg hc, hrest]

/-- The decoder's step, folded over the next observations, goes on with `Decode`. -/
theorem Decoded.stream {obs rest : List Observation} {m : Memory} {bc : BitVec 6} (h : Decoded obs m bc)
    (hlen : obs.length + rest.length ≤ 84) :
    ∃ m' bc', (rest.zipIdx obs.length).foldlM (fun p oi => decodeStep oi.2 oi.1.duration p.1 p.2) (m, bc) = .ok (m', bc') ∧
      Decoded (obs ++ rest) m' bc' := by
  induction rest generalizing obs m bc with
  | nil => exact ⟨m, bc, rfl, by rwa [List.append_nil]⟩
  | cons o rest ih =>
    rw [List.length_cons] at hlen
    obtain ⟨m₁, bc₁, hstep, hnext⟩ := h.step (by omega) o
    obtain ⟨m', bc', hfold, hd⟩ := ih hnext (by rw [List.length_append, List.length_singleton]; omega)
    rw [List.length_append, List.length_singleton] at hfold
    refine ⟨m', bc', ?_, by rwa [← List.append_cons] at hd⟩
    rw [List.zipIdx_cons, List.foldlM_cons, hstep]
    exact hfold

/-- A transition writes what the decoder's step answers. -/
theorem exec_sample_writes_decodeStep {s : State} {m : Memory} {bc : BitVec 6} (hl : s.port.lineIn ≠ s.lastLevel)
    (hd : decodeStep s.tIndex.toNat s.spinCount.toNat s.frame s.bitCount = .ok (m, bc)) :
    ∃ t, exec .sample s = .next t ∧ t.frame = m ∧ t.bitCount = bc := by
  rw [exec_sample_transition hl]
  rcases sampleTransition_cases s with ⟨m', bc', hd', he⟩ | ⟨r, hd', -⟩ <;> rw [hd] at hd' <;> cases hd'
  exact ⟨_, he, rfl, rfl⟩

end Sys2Proof.Machine
end

section
/-! SUPPORT. The obligations of 41_decoder.md on `Decode` as a function. -/

namespace Sys2Proof.Machine

/-- Settles O29: before index 4 nothing is read, and from there on a duration at each even index. -/
theorem onlyClassifiedDurationsMatter : Obligations.OnlyClassifiedDurationsMatter :=
  ⟨fun _ h => decodeFrom_of_le_four (by omega) _ _,
    fun _ _ hlen h => decodeFrom_congr hlen (fun j => by rw [Nat.zero_add]; exact h j) _ _⟩

/-- Settles O33: the fold of the decoder's step keeps `Decoded`, and `SAMPLE` writes what that step answers. -/
theorem streamedDecoderIsDecode : Obligations.StreamedDecoderIsDecode := by
  refine ⟨fun s m bc hl hd => exec_sample_writes_decodeStep hl hd, fun obs hlen => ?_⟩
  obtain ⟨m, bc, hfold, hm, hdecode, -⟩ := decoded_nil.stream (rest := obs) (by simpa using hlen)
  exact ⟨m, bc, _, _, hfold, hdecode, rfl, hm, rfl⟩

end Sys2Proof.Machine
end

section
/-! SUPPORT. The checksum in natural numbers (42_validator.md R126, R127) and the outcomes of `VALIDATE` (R128, 44_session.md R160). -/

namespace Sys2Proof.Machine

theorem checksum_toNat (f0 f1 f2 f3 : Byte) :
    (checksum f0 f1 f2 f3).toNat = (f0.toNat + f1.toNat + f2.toNat + f3.toNat) % 256 := by
  rw [checksum, BitVec.toNat_ofNat, Nat.mod_mod]

/-- The accumulator drops the carry of each of its three additions (42_validator.md R127). -/
theorem accumulate_toNat (f0 f1 f2 f3 : Byte) :
    (accumulate f0 f1 f2 f3).toNat = (((f0.toNat + f1.toNat) % 256 + f2.toNat) % 256 + f3.toNat) % 256 := by
  simp only [accumulate, BitVec.toNat_add, Nat.reducePow]

/-- Success and best effort go on to `ASSEMBLE`. -/
theorem exec_validate_assemble {s : State} (h : (s.shortFrame = false ∧ s.badChecksum = false) ∨ s.force = false) :
    exec .validate s = .next { s with
      stShort := s.shortFrame, stCsum := s.badChecksum, stFresh := !s.shortFrame && !s.badChecksum,
      phase := Phase.assemble } :=
  (execValidate_eq s).trans (if_pos (by simpa using h))

/-- An invalid attempt of a forced `TAKE` is followed by a new one. -/
theorem exec_validate_retry {s : State} (h : s.shortFrame = true ∨ s.badChecksum = true) (hf : s.force = true) :
    exec .validate s = .next (startAttempt { s with
      stShort := s.shortFrame, stCsum := s.badChecksum, stFresh := false }) := by
  have hok : (!s.shortFrame && !s.badChecksum) = false := by simpa [← Bool.not_or] using h
  refine (execValidate_eq s).trans ?_
  rw [hok, hf]
  rfl

end Sys2Proof.Machine
end

section
/-! SUPPORT. The obligations of 42_validator.md. -/

namespace Sys2Proof.Machine

/-- Settles O37: the two arguments are the block's own tests, and `VALIDATE` has two outcomes. -/
theorem validateJudgesAndBranches : Obligations.ValidateJudgesAndBranches := by
  intro s f0 f1 f2 f3 f4 short bad hframe hshort hbad
  obtain rfl : short = s.shortFrame := hshort
  obtain rfl : bad = s.badChecksum := by
    rw [hbad, Bool.eq_iff_iff, decide_eq_true_iff, badChecksum_iff hframe]
  exact ⟨exec_validate_assemble, exec_validate_retry⟩

/-- Settles O35: two bytes are equal when they are equal as natural numbers. -/
theorem validIffFortyBitsAndChecksum : Obligations.ValidIffFortyBitsAndChecksum := by
  intro f0 f1 f2 f3 f4 bitCount
  rw [valid, Bool.and_eq_true, decide_eq_true_iff, beq_iff_eq, BitVec.toNat_eq, checksum_toNat]

/-- Settles O36: reduction modulo 256 commutes with addition. -/
theorem accumulatorIsTheChecksum : Obligations.AccumulatorIsTheChecksum := by
  intro f0 f1 f2 f3
  refine ⟨BitVec.eq_of_toNat_eq ?_, accumulate_toNat f0 f1 f2 f3⟩
  rw [accumulate_toNat, checksum_toNat]
  simp only [Nat.mod_add_mod, Nat.add_assoc]

end Sys2Proof.Machine
end

section
/-! SUPPORT. What `ASSEMBLE` writes (43_assembler.md R144), for any frame and for one given by its five bytes. -/

namespace Sys2Proof.Machine

theorem exec_assemble (s : State) :
    exec .assemble s = .next { s with
      rdHumInt := Memory.read s.frame 0, rdHumFrac := Memory.read s.frame 1,
      rdTmpInt := Memory.read s.frame 2, rdTmpFrac := Memory.read s.frame 3,
      rdTs := s.port.timeIn, rdValid := true, phase := Phase.ready } := rfl

/-- Settles O40: the four bytes read are the first four bytes of the frame. -/
theorem assembleWritesTheRecord : Obligations.AssembleWritesTheRecord := by
  intro s f0 f1 f2 f3 f4 hframe
  simp only [State.frameBytes, List.cons.injEq] at hframe
  obtain ⟨rfl, rfl, rfl, rfl, -, -⟩ := hframe
  exact exec_assemble s

end Sys2Proof.Machine
end

section
/-! SUPPORT. The commands one by one (44_session.md R152 to R155), the step in which the command or the micro-operation has
nothing to do (R151, R168), and the phase after a step as one function of the state before it (R169). -/

namespace Sys2Proof.Machine

/-! ## Commands -/

/-- `INIT` where it is accepted (44_session.md R153). -/
theorem exec_init_of_uninit {s : State} (h : s.phase = Phase.uninit) :
    exec .init s = .next { s with phase := if s.port.initOk then Phase.ready else Phase.fatal } := by
  refine (if_pos h).trans ?_
  unfold State.initOk
  cases s.port.initOk <;> rfl

/-- `INIT` anywhere else (44_session.md R153). -/
theorem exec_init_refused {s : State} (h : s.phase ≠ Phase.uninit) :
    exec .init s = .next { s with cmdReject := true } := if_neg h

/-- `DESTROY` where it is accepted (44_session.md R155). -/
theorem exec_destroy_of_ready {s : State} (h : s.phase = Phase.ready) :
    exec .destroy s = .next { s with phase := Phase.closed, lineOe := false } := if_pos h

/-- `DESTROY` anywhere else (44_session.md R155). -/
theorem exec_destroy_refused {s : State} (h : s.phase ≠ Phase.ready) :
    exec .destroy s = .next { s with cmdReject := true } := if_neg h

/-- The command words `0b10f` are `TAKE f` (30_encoding.md R61, R62). -/
theorem decodeCmd_take (f : Bool) : decodeCmd (0b10#2 ++ BitVec.ofBool f) = .take f := by cases f <;> rfl

/-- Both forms of `NOP` (44_session.md R152). -/
theorem command_of_nop {s : State} (h : s.port.cmdValid = false ∨ s.port.cmd = 0b000#3) : s.command = 0b000#3 := by
  cases hv : s.port.cmdValid with
  | false => exact command_of_not_valid hv
  | true => exact (command_of_valid hv).trans (h.resolve_left (by simp [hv]))

/-! ## A step with one operation to do -/

/-- In the two phases that accept a command the micro-operation is idle, so the step is its command alone (44_session.md R151). -/
theorem step_of_idle {s : State} (hr : s.port.rst = false) (hp : s.phase = Phase.uninit ∨ s.phase = Phase.ready) :
    step s = andThen (exec (decodeCmd s.command) s.clearPulses) (fun t => .next t.advance) := by
  have hidle : exec (decodePhase s.phase) = .next := by rcases hp with hp | hp <;> rw [hp] <;> rfl
  rw [step_of_no_reset hr, runOperations, hidle]
  cases exec (decodeCmd s.command) s.clearPulses <;> rfl

/-- A step under `NOP` is its micro-operation alone (44_session.md R152). -/
theorem step_of_nop {s : State} (hr : s.port.rst = false) (hc : s.command = 0b000#3) :
    step s = andThen (exec (decodePhase s.phase) s.clearPulses) (fun t => .next t.advance) := by
  rw [step_of_no_reset hr, runOperations, hc]
  rfl

/-! ## The phase after a step -/

/-- `SAMPLE` ends the pass in this step: by saturation (40_sampler.md R94) or by the transition cap (R95). -/
abbrev State.passEnds (s : State) : Prop :=
  (s.port.lineIn = s.lastLevel ∧ s.spinCount.toNat + 1 = 255) ∨ (s.port.lineIn ≠ s.lastLevel ∧ s.tIndex.toNat + 1 = 83)

/-- `VALIDATE` starts a new attempt in this step (44_session.md R160). -/
abbrev State.retries (s : State) : Prop := (s.shortFrame = true ∨ s.badChecksum = true) ∧ s.force = true

/-- Otherwise it goes on to `ASSEMBLE`: the frame is valid, or `force = 0` (44_session.md R160). -/
theorem State.not_retries_iff (s : State) :
    ¬ s.retries ↔ (s.shortFrame = false ∧ s.badChecksum = false) ∨ s.force = false := by
  rw [State.retries, not_and_or, not_or, Bool.not_eq_true, Bool.not_eq_true, Bool.not_eq_true]

/-- The table of 44_session.md R169 as a function: the phase after a step that is no reset and answers a next state. -/
def State.nextPhase (s : State) : PhaseCode :=
  if s.phase = Phase.uninit ∧ s.command = 0b010#3 then if s.port.initOk then Phase.ready else Phase.fatal
  else if s.phase = Phase.ready ∧ (s.command = 0b100#3 ∨ s.command = 0b101#3) then Phase.hsLow
  else if s.phase = Phase.ready ∧ s.command = 0b110#3 then Phase.closed
  else if s.phase = Phase.hsLow ∧ s.hsCount.toNat + 1 = 18000 then Phase.hsHigh
  else if s.phase = Phase.hsHigh ∧ s.hsCount.toNat + 1 = 40 then Phase.sampling
  else if s.phase = Phase.sampling ∧ s.passEnds then Phase.validate
  else if s.phase = Phase.validate then if s.retries then Phase.hsLow else Phase.assemble
  else if s.phase = Phase.assemble then Phase.ready
  else s.phase

/-- A micro-operation that runs without an accepted command writes the phase of the table. -/
theorem MicroEffect.phase_eq {s u : State} (h : MicroEffect s u) (ha : ¬ s.accepts) : u.phase = s.nextPhase := by
  unfold State.nextPhase
  cases h with
  | idle h =>
    simp only [State.accepts, not_or, not_and'] at ha
    obtain ⟨hinit, hcmd⟩ := ha
    rcases h with h | h | h | h
    · simp [h, hinit h]
    · simp [h, hcmd h]
    · simp [h]
    · simp [h]
  | lowHold h hc | lowEnd h hc | highHold h hc | highEnd h hc => simp [h, hc]
  | count h hl hc | saturate h hl hc => simp [h, hl, hc, State.passEnds]
  | skip h hl | append h hl => simp [h, hl, State.passEnds]
  | accept h hc =>
    have hno : ¬ s.retries := s.not_retries_iff.2 hc
    simp [h, hno]
  | retry h hc hf =>
    have hyes : s.retries := ⟨hc, hf⟩
    simp [h, hyes]
  | assemble h => simp [h]

/-- The phase after a step that is no reset. -/
theorem step_phase_eq {s t : State} (hr : s.port.rst = false) (hs : step s = .next t) : t.phase = s.nextPhase := by
  rcases step_effect hr hs with ⟨hc, hp, rfl⟩ | ⟨f, hc, hp, rfl⟩ | ⟨hc, hp, rfl⟩ | ⟨ha, u, hu, rfl⟩
  · simp [State.nextPhase, hp, hc]
  · cases f <;> simp [State.nextPhase, hp, hc]
  · simp [State.nextPhase, hp, hc]
  · exact hu.phase_eq ha

/-- The phase after a reset (70_reset_and_hazards.md R200). -/
theorem step_phase_of_reset {s t : State} (hr : s.port.rst = true) (hs : step s = .next t) : t.phase = Phase.uninit := by
  rw [step_of_reset hr] at hs
  cases hs
  rfl

end Sys2Proof.Machine
end

section
/-! SUPPORT. The obligations of 44_session.md on the commands, the whole step and the changes of phase. -/

namespace Sys2Proof.Machine

/-- Settles O10: the command of the step is `NOP` in both forms, so the step is its micro-operation. -/
theorem nopHasNoEffect : Obligations.NopHasNoEffect :=
  ⟨fun _ => rfl, fun _ hr hc => step_of_nop hr (command_of_nop hc)⟩

/-- Settles O12: `INIT` in `UNINIT` by the level of `init_ok`, and elsewhere. -/
theorem initLeavesUninit : Obligations.InitLeavesUninit := by
  refine fun s => ⟨fun hp hi => ?_, fun hp hi => ?_, exec_init_refused⟩
  · rw [exec_init_of_uninit hp, if_pos hi]
  · rw [exec_init_of_uninit hp, if_neg (by simp [hi])]

/-- Settles O14: `DESTROY` in `READY`, and elsewhere. -/
theorem destroyClosesTheSession : Obligations.DestroyClosesTheSession :=
  fun _ => ⟨exec_destroy_of_ready, exec_destroy_refused⟩

/-- Settles O7: an accepted command meets an idle micro-operation, and any other command leaves `cmd_reject` only. -/
theorem wholeStepFunction : Obligations.WholeStepFunction := by
  intro s
  refine ⟨step_of_reset, fun hr => ⟨fun hc hp => ?_, fun f hc hp => ?_, fun hc hp => ?_, fun hinit hcmd => ?_⟩⟩
  · rw [step_of_idle hr (.inl hp), hc]
    rfl
  · rw [step_of_idle hr (.inr hp), hc, decodeCmd_take]
  · rw [step_of_idle hr (.inr hp), hc]
    rfl
  · exact step_of_not_accepts hr (not_or.2 ⟨hinit, hcmd⟩)

/-- Settles O49: `nextPhase` read at each row of the table, and inverted branch by branch. -/
theorem everyPhaseChange : Obligations.EveryPhaseChange := by
  refine ⟨fun s t hs hr => step_phase_of_reset hr hs, fun s t hs hr => ?_, fun s t hs hne => ?_⟩
  · rw [step_phase_eq hr hs]
    unfold State.nextPhase
    refine ⟨fun hp hc => ?_, fun hp hc => ?_, fun hp hc => ?_, fun hp hc => ?_, fun hp hc => ?_, fun hp hl hc => ?_,
      fun hp hl hc => ?_, fun hp => ?_, fun hp => ?_⟩
    · simp [hp, hc]
    · simp [hp, hc]
    · simp [hp, hc]
    · simp [hp, hc]
    · simp [hp, hc]
    · simp [hp, hl, hc]
    · simp [hp, hl, hc]
    · simp [hp]
    · simp [hp]
  · cases hr : s.port.rst with
    | true => exact .inl ⟨rfl, step_phase_of_reset hr hs⟩
    | false =>
      refine .inr ⟨rfl, ?_⟩
      have ht := step_phase_eq hr hs
      unfold State.nextPhase at ht
      split_ifs at ht with hinit hok htake hdestroy hlow hhigh hpass hval hretry hasm
      · simp [ht, hinit, hok]
      · simp [ht, hinit, hok]
      · simp [ht, htake]
      · simp [ht, hdestroy]
      · simp [ht, hlow]
      · simp [ht, hhigh]
      · obtain ⟨hp, hend⟩ := hpass
        simpa [ht, hp, State.passEnds] using hend
      · simpa [ht, hval] using hretry
      · simpa [ht, hval] using s.not_retries_iff.1 hretry
      · simp [ht, hasm]
      · exact absurd ht hne

end Sys2Proof.Machine
end

section
/-! SUPPORT. The obligation of 70_reset_and_hazards.md. -/

namespace Sys2Proof.Machine

/-- No row of the table of 44_session.md R169 leads out of `FATAL` or `CLOSED`. -/
theorem State.nextPhase_of_terminal {s : State} (hp : s.phase = Phase.fatal ∨ s.phase = Phase.closed) :
    s.nextPhase = s.phase := by
  rcases hp with hp | hp <;> simp [State.nextPhase, hp]

/-- From a busy phase the table of 44_session.md R169 leads to a phase that is not busy in the row of `ASSEMBLE` only. -/
theorem State.busy_nextPhase {s : State} (hb : busy s.phase = true) (ha : s.phase ≠ Phase.assemble) :
    busy s.nextPhase = true := by
  simp only [busy_eq, decide_eq_true_eq] at hb
  unfold State.nextPhase
  rcases hb with hp | hp | hp | hp | hp
  · by_cases hc : s.hsCount.toNat + 1 = 18000 <;> simp [busy_eq, hp, hc]
  · by_cases hc : s.hsCount.toNat + 1 = 40 <;> simp [busy_eq, hp, hc]
  · by_cases hc : s.passEnds <;> simp [busy_eq, hp, hc]
  · by_cases hc : s.retries <;> simp [busy_eq, hp, hc]
  · exact absurd hp ha

/-- Settles O9: a reset step is `applyReset`, and any other step writes the phase `nextPhase` names. -/
theorem resetStepWritesEveryRegister : Obligations.ResetStepWritesEveryRegister := by
  refine ⟨fun s hr => ⟨_, step_of_reset hr, rfl, rfl, rfl, rfl, rfl⟩, fun s t hr hs => ?_⟩
  rw [step_phase_eq hr hs]
  exact ⟨State.nextPhase_of_terminal, State.busy_nextPhase⟩

end Sys2Proof.Machine
end

section
/-! SUPPORT. The decoder against the encoder (30_encoding.md R60 to R65, R72). -/

namespace Sys2Proof

theorem decode_encode (i : Instr) (rest : List Byte) : decode i.format (encode i ++ rest) = .ok (i, rest) := by
  cases i with
  | take f => cases f <;> rfl
  | _ => rfl

/-! ## A byte within the width of its encoding, and one beyond it -/

theorem decode_cmd_of_lt {b : Byte} (h : b.toNat < 8) (rest : List Byte) :
    decode .cmd (b :: rest) = .ok (decodeCmd (b.setWidth 3), rest) := if_pos h

theorem decode_phase_of_lt {b : Byte} (h : b.toNat < 16) (rest : List Byte) :
    decode .phase (b :: rest) = .ok (decodePhase (b.setWidth 4), rest) := if_pos h

theorem decode_of_tooWide {fmt : Format} {b : Byte} (h : 2 ^ fmt.width ≤ b.toNat) (rest : List Byte) :
    decode fmt (b :: rest) = .error .tooWide := if_neg (Nat.not_lt.2 h)

/-- A byte decodes within the width of its encoding only. -/
theorem lt_width_of_decode_ok {fmt : Format} {b : Byte} {bs : List Byte} {r : Instr × List Byte}
    (h : decode fmt (b :: bs) = .ok r) : b.toNat < 2 ^ fmt.width := by
  by_contra hw
  rw [decode_of_tooWide (Nat.not_lt.1 hw)] at h
  cases h

/-! ## Every word of the two selectors is the encoding of what it selects -/

theorem format_decodeCmd (w : CmdWord) : (decodeCmd w).format = .cmd := by revert w; decide

theorem format_decodePhase (p : PhaseCode) : (decodePhase p).format = .phase := by revert p; decide

theorem encode_decodeCmd (w : CmdWord) : encode (decodeCmd w) = [w.setWidth 8] := by revert w; decide

theorem encode_decodePhase (p : PhaseCode) : encode (decodePhase p) = [p.setWidth 8] := by revert p; decide

/-- A command word, right-aligned in a byte, decodes to what the command map says. -/
theorem decode_cmd_setWidth (w : CmdWord) (rest : List Byte) :
    decode .cmd (w.setWidth 8 :: rest) = .ok (decodeCmd w, rest) := by
  have h := decode_encode (decodeCmd w) rest
  rwa [format_decodeCmd, encode_decodeCmd] at h

/-- A phase code, right-aligned in a byte, decodes to what the phase map says. -/
theorem decode_phase_setWidth (p : PhaseCode) (rest : List Byte) :
    decode .phase (p.setWidth 8 :: rest) = .ok (decodePhase p, rest) := by
  have h := decode_encode (decodePhase p) rest
  rwa [format_decodePhase, encode_decodePhase] at h

/-- A byte within a width is its low bits, right-aligned. -/
theorem setWidth_setWidth_of_lt {n : Nat} {b : Byte} (h : b.toNat < 2 ^ n) : (b.setWidth n).setWidth 8 = b := by
  refine BitVec.eq_of_toNat_eq ?_
  rw [BitVec.toNat_setWidth, BitVec.toNat_setWidth, Nat.mod_eq_of_lt h, Nat.mod_eq_of_lt b.isLt]

/-- A byte that decodes is a word of the encoding, right-aligned. -/
theorem encode_of_decode_ok {fmt : Format} {b : Byte} {bs rest : List Byte} {i : Instr}
    (h : decode fmt (b :: bs) = .ok (i, rest)) : encode i = [b] ∧ i.format = fmt ∧ rest = bs := by
  have hb := lt_width_of_decode_ok h
  cases fmt with
  | cmd =>
    rw [decode_cmd_of_lt hb] at h
    cases h
    exact ⟨by rw [encode_decodeCmd, setWidth_setWidth_of_lt (n := 3) hb], format_decodeCmd _, rfl⟩
  | phase =>
    rw [decode_phase_of_lt hb] at h
    cases h
    exact ⟨by rw [encode_decodePhase, setWidth_setWidth_of_lt (n := 4) hb], format_decodePhase _, rfl⟩

/-- What a table word decodes to, by the encoding that holds it (log 1). -/
theorem decodeTableWord_eq_some {nbits w : Nat} {i : Instr} (h : decodeTableWord nbits w = some i) :
    (tableFormat nbits w = some .cmd ∧ i = decodeCmd (BitVec.ofNat 3 w)) ∨
    (tableFormat nbits w = some .phase ∧ i = decodePhase (BitVec.ofNat 4 w)) := by
  unfold decodeTableWord at h
  split at h
  · cases h
  next fmt hfmt =>
    split_ifs at h with hw
    split at h
    next j rest hd =>
      cases h
      have hb := lt_width_of_decode_ok hd
      cases fmt with
      | cmd =>
        rw [decode_cmd_of_lt hb, BitVec.setWidth_ofNat_of_le (by decide)] at hd
        cases hd
        exact .inl ⟨hfmt, rfl⟩
      | phase =>
        rw [decode_phase_of_lt hb, BitVec.setWidth_ofNat_of_le (by decide)] at hd
        cases hd
        exact .inr ⟨hfmt, rfl⟩
    · cases h

end Sys2Proof
end

section
/-! SUPPORT. The obligations on decoding as a function. -/

namespace Sys2Proof.Machine

/-- Settles O1: operation by operation, and `TAKE` by its operand. -/
theorem decodeOfEncodeIsTheOperation : Obligations.DecodeOfEncodeIsTheOperation :=
  fun i rest _ => decode_encode i rest

/-- Settles O2: a byte decodes within the width of its encoding, as the word that it is there. -/
theorem everyWordHasOneMeaning : Obligations.EveryWordHasOneMeaning := by
  refine fun fmt b bs => ⟨fun i rest h => encode_of_decode_ok h, ⟨fun h => ?_, fun h => decode_of_tooWide h bs⟩, rfl⟩
  by_contra hw
  rw [Nat.not_le] at hw
  cases fmt with
  | cmd => rw [decode_cmd_of_lt hw] at h; cases h
  | phase => rw [decode_phase_of_lt hw] at h; cases h

end Sys2Proof.Machine
end

section
/-! SUPPORT. `TAKE`, the steps that accept a command, each micro-operation as the outcome that `exec` answers, and from these
that no step from a state of the invariant stops. -/

namespace Sys2Proof.Machine

/-! ## `TAKE` -/

/-- `TAKE` where it is accepted (44_session.md R154). -/
theorem exec_take_of_ready {s : State} (h : s.phase = Phase.ready) (f : Bool) :
    exec (.take f) s = .next (startAttempt { s with force := f }) := if_pos h

/-- `TAKE` anywhere else (44_session.md R154). -/
theorem exec_take_refused {s : State} (h : s.phase ≠ Phase.ready) (f : Bool) :
    exec (.take f) s = .next { s with cmdReject := true } := if_neg h

/-! ## Steps that accept a command (44_session.md R151) -/

theorem step_of_init {s : State} (hr : s.port.rst = false) (hc : s.command = 0b010#3) (hp : s.phase = Phase.uninit) :
    step s =
      .next ({ s.clearPulses with phase := if s.port.initOk then Phase.ready else Phase.fatal } : State).advance := by
  have he : exec (decodeCmd 0b010#3) s.clearPulses = _ := exec_init_of_uninit hp
  rw [step_of_idle hr (.inl hp), hc, he, andThen_next]
  rfl

theorem step_of_take {s : State} {f : Bool} (hr : s.port.rst = false) (hc : s.command = 0b10#2 ++ BitVec.ofBool f)
    (hp : s.phase = Phase.ready) : step s = .next (startAttempt { s.clearPulses with force := f }).advance := by
  have hp' : s.clearPulses.phase = Phase.ready := hp
  rw [step_of_idle hr (.inr hp), hc, decodeCmd_take, exec_take_of_ready hp', andThen_next]

theorem step_of_destroy {s : State} (hr : s.port.rst = false) (hc : s.command = 0b110#3) (hp : s.phase = Phase.ready) :
    step s = .next ({ s.clearPulses with phase := Phase.closed, lineOe := false } : State).advance := by
  have he : exec (decodeCmd 0b110#3) s.clearPulses = _ := exec_destroy_of_ready hp
  rw [step_of_idle hr (.inr hp), hc, he, andThen_next]

/-- The three commands that can be accepted, `TAKE` with its operand (30_encoding.md R62). -/
theorem State.accepts_cases {s : State} (ha : s.accepts) :
    (s.command = 0b010#3 ∧ s.phase = Phase.uninit) ∨
    (∃ f : Bool, s.command = 0b10#2 ++ BitVec.ofBool f ∧ s.phase = Phase.ready) ∨
    (s.command = 0b110#3 ∧ s.phase = Phase.ready) := by
  rcases ha with h | ⟨hc | hc | hc, hp⟩
  · exact .inl h
  · exact .inr (.inl ⟨false, hc, hp⟩)
  · exact .inr (.inl ⟨true, hc, hp⟩)
  · exact .inr (.inr ⟨hc, hp⟩)

/-- A command that is accepted makes the step answer a next state. -/
theorem step_progress_of_accepts {s : State} (hr : s.port.rst = false) (ha : s.accepts) : ∃ t, step s = .next t := by
  rcases State.accepts_cases ha with ⟨hc, hp⟩ | ⟨f, hc, hp⟩ | ⟨hc, hp⟩
  · exact ⟨_, step_of_init hr hc hp⟩
  · exact ⟨_, step_of_take hr hc hp⟩
  · exact ⟨_, step_of_destroy hr hc hp⟩

/-! ## Micro-operations -/

/-- `SAMPLE` at a transition that carries no bit. -/
theorem exec_sample_skip {s : State} (hl : s.port.lineIn ≠ s.lastLevel)
    (hc : ¬ (4 ≤ s.tIndex.toNat ∧ s.tIndex.toNat % 2 = 0)) :
    exec .sample s = .next { s with
      spinCount := 0, lastLevel := s.port.lineIn, tIndex := writeTIndex s.draws (s.tIndex.toNat + 1),
      phase := if s.tIndex.toNat + 1 = 83 then Phase.validate else s.phase } := by
  rw [exec_sample_transition hl]
  rcases sampleTransition_cases s with ⟨m, bc, hd, he⟩ | ⟨r, hd, -⟩ <;> rw [decodeStep_skip hc] at hd <;> cases hd
  exact he

/-- `SAMPLE` at a transition that carries a bit. -/
theorem exec_sample_append {s : State} (hl : s.port.lineIn ≠ s.lastLevel)
    (hc : 4 ≤ s.tIndex.toNat ∧ s.tIndex.toNat % 2 = 0) (hb : s.bitCount.toNat < 40) :
    exec .sample s = .next { s with
      frame := Memory.write s.frame (s.bitCount.toNat >>> 3)
        (shiftIn (Memory.read s.frame (s.bitCount.toNat >>> 3)) (classify s.spinCount.toNat)),
      bitCount := s.bitCount + 1,
      spinCount := 0, lastLevel := s.port.lineIn, tIndex := writeTIndex s.draws (s.tIndex.toNat + 1),
      phase := if s.tIndex.toNat + 1 = 83 then Phase.validate else s.phase } := by
  rw [exec_sample_transition hl, shiftRight_three]
  rcases sampleTransition_cases s with ⟨m, bc, hd, he⟩ | ⟨r, hd, -⟩ <;> rw [decodeStep_append hc hb] at hd <;> cases hd
  exact he

/-- `SAMPLE` at a transition that would carry a bit beyond the frame (20_memory.md R42, log 9). -/
theorem exec_sample_beyond {s : State} (hl : s.port.lineIn ≠ s.lastLevel)
    (hc : 4 ≤ s.tIndex.toNat ∧ s.tIndex.toNat % 2 = 0) (hb : 40 ≤ s.bitCount.toNat) :
    exec .sample s = .fault (.frameAddress (s.bitCount.toNat >>> 3)) := by
  have hfault : decodeStep s.tIndex.toNat s.spinCount.toNat s.frame s.bitCount =
      .error (.frameAddress (s.bitCount.toNat >>> 3)) := by
    rcases bitAppend_spec (classify s.spinCount.toNat) s.frame s.bitCount with ⟨hlt, -⟩ | ⟨-, he⟩
    · omega
    · exact (if_pos ((classified_iff _).2 hc)).trans he
  rw [exec_sample_transition hl]
  rcases sampleTransition_cases s with ⟨m, bc, hd, -⟩ | ⟨r, hd, he⟩ <;> rw [hfault] at hd <;> cases hd
  exact he

theorem exec_of_phase {s : State} {p : PhaseCode} (h : s.phase = p) :
    exec (decodePhase s.phase) s = exec (decodePhase p) s := by rw [h]

/-- What a micro-operation does is what `exec` answers. -/
theorem MicroEffect.exec_eq {s u : State} (h : MicroEffect s u) : exec (decodePhase s.phase) s = .next u := by
  cases h with
  | idle h => rcases h with h | h | h | h <;> exact exec_of_phase h
  | lowHold h hc => exact (exec_of_phase h).trans (exec_hsLow_hold hc)
  | lowEnd h hc => exact (exec_of_phase h).trans (exec_hsLow_last hc)
  | highHold h hc => exact (exec_of_phase h).trans (exec_hsHigh_hold hc)
  | highEnd h hc => exact (exec_of_phase h).trans (exec_hsHigh_last hc)
  | count h hl hc =>
    have he := (sampleSame_cases s).resolve_left fun hn => hc hn.1
    exact (exec_of_phase h).trans ((exec_sample_same hl).trans (congrArg _ he.2))
  | saturate h hl hc => exact (exec_of_phase h).trans (exec_sample_saturate hl hc)
  | skip h hl hc => exact (exec_of_phase h).trans (exec_sample_skip hl hc)
  | append h hl hc hb => exact (exec_of_phase h).trans (exec_sample_append hl hc hb)
  | accept h hc => exact (exec_of_phase h).trans (exec_validate_assemble hc)
  | retry h hc hf => exact (exec_of_phase h).trans (exec_validate_retry hc hf)
  | assemble h => exact exec_of_phase h

theorem step_of_microEffect {s u : State} (hr : s.port.rst = false) (ha : ¬ s.accepts) (h : MicroEffect s.polled u) :
    step s = .next u.advance := by
  have he : exec (decodePhase s.phase) s.polled = .next u := h.exec_eq
  rw [step_of_not_accepts hr ha, he, andThen_next]

/-! ## Where a micro-operation stops, and that no step from a state of the invariant does -/

/-- Why the micro-operation that `phase` selects stops: it is reserved (30_encoding.md R65), or it is a `SAMPLE` that would append
beyond the frame (20_memory.md R42, log 9). -/
inductive MicroFault (s : State) : Fault → Prop
  | reserved (h : 9 ≤ s.phase.toNat) : MicroFault s (.reservedPhase s.phase)
  | beyond (h : s.phase = Phase.sampling) (hl : s.port.lineIn ≠ s.lastLevel)
      (hc : 4 ≤ s.tIndex.toNat ∧ s.tIndex.toNat % 2 = 0) (hb : 40 ≤ s.bitCount.toNat) :
      MicroFault s (.frameAddress (s.bitCount.toNat >>> 3))

theorem MicroFault.exec_eq {s : State} {r : Fault} (h : MicroFault s r) : exec (decodePhase s.phase) s = .fault r := by
  cases h with
  | reserved h => exact exec_reservedPhase h s
  | beyond h hl hc hb => exact (exec_of_phase h).trans (exec_sample_beyond hl hc hb)

/-- The micro-operation of every phase has one of its effects or stops. -/
theorem micro_effect_or_fault (s : State) : (∃ u, MicroEffect s u) ∨ ∃ r, MicroFault s r := by
  rcases phase_cases s.phase with h | h | h | h | h | h | h | h | h | h
  · exact .inl ⟨_, .idle (by simp [h])⟩
  · exact .inl ⟨_, .idle (by simp [h])⟩
  · exact .inl ((em (s.hsCount.toNat + 1 = 18000)).elim (fun hc => ⟨_, .lowEnd h hc⟩) fun hc => ⟨_, .lowHold h hc⟩)
  · exact .inl ((em (s.hsCount.toNat + 1 = 40)).elim (fun hc => ⟨_, .highEnd h hc⟩) fun hc => ⟨_, .highHold h hc⟩)
  · by_cases hl : s.port.lineIn = s.lastLevel
    · exact .inl ((em (s.spinCount.toNat = 254)).elim (fun hc => ⟨_, .saturate h hl hc⟩) fun hc => ⟨_, .count h hl hc⟩)
    · by_cases hc : 4 ≤ s.tIndex.toNat ∧ s.tIndex.toNat % 2 = 0
      · exact (Nat.lt_or_ge s.bitCount.toNat 40).imp
          (fun hb => ⟨_, .append h hl hc hb⟩) fun hb => ⟨_, .beyond h hl hc hb⟩
      · exact .inl ⟨_, .skip h hl hc⟩
  · exact .inl ((em s.retries).elim (fun hc => ⟨_, .retry h hc.1 hc.2⟩)
      fun hc => ⟨_, .accept h (s.not_retries_iff.1 hc)⟩)
  · exact .inl ⟨_, .assemble h⟩
  · exact .inl ⟨_, .idle (by simp [h])⟩
  · exact .inl ⟨_, .idle (by simp [h])⟩
  · exact .inr ⟨_, .reserved h⟩

/-- The invariant rules both stops out: every phase code is a named one, and a pass in progress has room for one more bit. -/
theorem MicroFault.not_inv {s : State} {r : Fault} (h : MicroFault s r) : ¬ s.Inv := by
  intro hi
  cases h with
  | reserved h =>
    have := hi.r30.phaseNamed
    omega
  | beyond h hl hc hb =>
    obtain ⟨-, ht, -⟩ := hi.passOpen h
    have := hi.r31.bitCount_eq
    omega

/-- From a state of the invariant every step answers a next state, which has the invariant (70_reset_and_hazards.md R205). -/
theorem step_progress {s : State} (hi : s.Inv) : ∃ t, step s = .next t ∧ t.Inv := by
  have hstep : ∃ t, step s = .next t := by
    cases hr : s.port.rst with
    | true => exact ⟨_, step_of_reset hr⟩
    | false =>
      by_cases ha : s.accepts
      · exact step_progress_of_accepts hr ha
      · obtain ⟨u, hu⟩ := (micro_effect_or_fault s.polled).resolve_right fun ⟨_, h⟩ => h.not_inv (inv_polled hi)
        exact ⟨_, step_of_microEffect hr ha hu⟩
  obtain ⟨t, ht⟩ := hstep
  exact ⟨t, ht, step_keeps_inv hi ht⟩

end Sys2Proof.Machine
end

section
/-! SUPPORT. The obligations on the invariant. -/

namespace Sys2Proof.Machine

/-- Settles O53: R30, R31 and what the phases add are kept by every accepted command and every micro-operation. -/
theorem everyStepKeepsTheInvariant : Obligations.EveryStepKeepsTheInvariant :=
  fun _ _ => step_keeps_inv

/-- Settles O54: a pass in progress has room for one more bit, and no reserved phase code has the invariant. -/
theorem theBlockNeverStops : Obligations.TheBlockNeverStops :=
  fun _ => step_progress

/-- Settles O52: the reset values meet R30, R31 and what the phases add. -/
theorem resetHasTheInvariant : Obligations.ResetHasTheInvariant := inv_reset

end Sys2Proof.Machine
end

section
/-! SUPPORT. The obligations on single operations: `SAMPLE` (40_sampler.md), `TAKE`, the handshake and the idle phases
(44_session.md), and the counters past their widths (log 8). -/

namespace Sys2Proof.Machine

/-- Settles O23: on the same level `SAMPLE` counts, and at a transition it skips, appends or is beyond the frame. -/
theorem sampleFaultsOnlyBeyondTheFrame : Obligations.SampleFaultsOnlyBeyondTheFrame := by
  refine fun s => ⟨fun ⟨hl, h4, h2, hb⟩ => exec_sample_beyond hl ⟨h4, h2⟩ hb, fun hn => ?_⟩
  by_cases hl : s.port.lineIn = s.lastLevel
  · exact ⟨_, exec_sample_same hl⟩
  · by_cases hc : 4 ≤ s.tIndex.toNat ∧ s.tIndex.toNat % 2 = 0
    · exact ⟨_, exec_sample_append hl hc (Nat.lt_of_not_le fun hb => hn ⟨hl, hc.1, hc.2, hb⟩)⟩
    · exact ⟨_, exec_sample_skip hl hc⟩

/-- Settles O24: the writes of each outcome of `SAMPLE`, and the one byte that an append writes. -/
theorem sampleFrameCondition : Obligations.SampleFrameCondition := by
  intro s t hs
  by_cases hl : s.port.lineIn = s.lastLevel
  · rw [exec_sample_same hl] at hs
    cases hs
    rcases sampleSame_cases s with ⟨-, he⟩ | ⟨-, he⟩ <;> rw [he] <;>
      exact ⟨fun _ _ => rfl, fun _ => ⟨rfl, rfl, rfl⟩, fun h => absurd hl h, rfl⟩
  · by_cases hc : 4 ≤ s.tIndex.toNat ∧ s.tIndex.toNat % 2 = 0
    · rcases Nat.lt_or_ge s.bitCount.toNat 40 with hb | hb
      · rw [exec_sample_append hl hc hb] at hs
        cases hs
        exact ⟨fun a ha => read_write_other _ _ fun h => ha ⟨hl, hc.1, hc.2, h⟩, fun h => absurd h hl, fun _ => rfl, rfl⟩
      · rw [exec_sample_beyond hl hc hb] at hs
        cases hs
    · rw [exec_sample_skip hl hc] at hs
      cases hs
      exact ⟨fun _ _ => rfl, fun h => absurd h hl, fun _ => rfl, rfl⟩

/-- Settles O13: `TAKE` in `READY`, and elsewhere. -/
theorem takeStartsAnAttempt : Obligations.TakeStartsAnAttempt :=
  fun _ f => ⟨fun h => exec_take_of_ready h f, fun h => exec_take_refused h f⟩

/-- Settles O15: each idle micro-operation answers its own state. -/
theorem idleMicroOperationsHaveNoEffect : Obligations.IdleMicroOperationsHaveNoEffect :=
  fun _ => ⟨rfl, rfl, rfl, rfl⟩

theorem writeHs_succ (d : Nat) {n : BitVec 15} (h : n.toNat < 32767) : writeHs d (n.toNat + 1) = n + 1 :=
  BitVec.eq_of_toNat_eq ((writeHs_toNat d (by omega)).trans (by bv_omega))

/-- Settles O17: the last step of the low hold and every other one. -/
theorem hsLowHoldsTheLineLow : Obligations.HsLowHoldsTheLineLow := by
  refine fun s => ⟨fun h => exec_hsLow_last (by rw [h]; rfl), fun h hlt => ?_⟩
  rw [exec_hsLow_hold (by bv_omega), writeHs_succ _ hlt]

/-- Settles O18: the last step of the high hold and every other one. -/
theorem hsHighReleasesTheLine : Obligations.HsHighReleasesTheLine := by
  refine fun s => ⟨fun h => exec_hsHigh_last (by rw [h]; rfl), fun h hlt => ?_⟩
  rw [exec_hsHigh_hold (by bv_omega), writeHs_succ _ hlt]

/-! ## Counters past their widths (log 8) -/

theorem writeSpin_of_ge (d : Nat) {n : Nat} (h : 256 ≤ n) : writeSpin d n = Config.freeSpinCount d :=
  if_neg (Nat.not_lt.2 h)

theorem writeTIndex_of_ge (d : Nat) {n : Nat} (h : 128 ≤ n) : writeTIndex d n = Config.freeTIndex d :=
  if_neg (Nat.not_lt.2 h)

theorem writeHs_of_ge (d : Nat) {n : Nat} (h : 32768 ≤ n) : writeHs d n = Config.freeHsCount d :=
  if_neg (Nat.not_lt.2 h)

/-- Settles O25: none of the three counters is at its last value, and the index 127 carries no bit. -/
theorem counterOverflowLeavesAFreeValue : Obligations.CounterOverflowLeavesAFreeValue := by
  refine fun s => ⟨fun hl hs => ?_, fun hl ht => ?_, fun hh => ?_⟩
  · have hn : s.spinCount.toNat = 255 := by rw [hs]; rfl
    rw [exec_sample_same hl, ((sampleSame_cases s).resolve_left fun h => by omega).2, hn, writeSpin_of_ge _ (by omega)]
  · have hn : s.tIndex.toNat = 127 := by rw [ht]; rfl
    rw [exec_sample_skip hl (by omega), hn, writeTIndex_of_ge _ (by omega), if_neg (by omega)]
  · have hn : s.hsCount.toNat = 32767 := by rw [hh]; rfl
    rw [exec_hsLow_hold (by omega), exec_hsHigh_hold (by omega), hn, writeHs_of_ge _ (by omega)]
    exact ⟨rfl, rfl⟩

end Sys2Proof.Machine
end

section
/-! SUPPORT. Runs from the terminal phases (44_session.md R165, R166). -/

namespace Sys2Proof.Machine

/-- A command other than `NOP` is presented with `cmd_valid = 1` (44_session.md R151). -/
theorem command_ne_nop_iff (s : State) :
    s.command ≠ 0b000#3 ↔ s.port.cmdValid = true ∧ s.port.cmd ≠ 0b000#3 := by
  cases hv : s.port.cmdValid with
  | true => rw [command_of_valid hv]; simp
  | false => rw [command_of_not_valid hv]; simp

/-- Nothing but the pulses and the model's own fields tells two states apart. -/
def SameButPulses (s t : State) : Prop :=
  t = { s with rdValid := t.rdValid, cmdReject := t.cmdReject, inputs := t.inputs, draws := t.draws }

theorem SameButPulses.phase_eq {s t : State} (h : SameButPulses s t) : t.phase = s.phase := (congrArg State.phase h :)

theorem SameButPulses.lineOe_eq {s t : State} (h : SameButPulses s t) : t.lineOe = s.lineOe := (congrArg State.lineOe h :)

theorem SameButPulses.polled {s t : State} (h : SameButPulses s t) : SameButPulses s t.polled.advance :=
  congrArg (fun x : State => x.polled.advance) h

/-- A step from `FATAL` or `CLOSED` that is no reset writes the pulses only. -/
theorem step_of_terminal {s : State} (hr : s.port.rst = false) (hp : s.phase = Phase.fatal ∨ s.phase = Phase.closed) :
    step s = .next s.polled.advance :=
  step_of_microEffect hr (by rcases hp with hp | hp <;> exact not_accepts_of_phase (by simp [hp]) (by simp [hp]))
    (.idle (by rcases hp with hp | hp <;> simp [hp]))

/-- A run from `FATAL` or `CLOSED` without a reset. -/
theorem steps_of_terminal {s : State} (hp : s.phase = Phase.fatal ∨ s.phase = Phase.closed) {k : Nat}
    (hr : ∀ i < k, (s.portAt i).rst = false) :
    ∃ t, steps k s = .next t ∧ SameButPulses s t ∧ (0 < k → t.rdValid = false ∧
      (t.cmdReject = true ↔ (s.portAt (k - 1)).cmdValid = true ∧ (s.portAt (k - 1)).cmd ≠ 0b000#3)) := by
  induction k with
  | zero => exact ⟨s, rfl, rfl, fun h => absurd h (Nat.lt_irrefl 0)⟩
  | succ k ih =>
    obtain ⟨t, ht, hsame, -⟩ := ih fun i hi => hr i (Nat.lt_succ_of_lt hi)
    have hport : t.port = s.portAt k := steps_portAt ht 0
    refine ⟨t.polled.advance, ?_, hsame.polled, fun _ => ⟨rfl, ?_⟩⟩
    · rw [steps_last, ht, andThen_next, step_of_terminal (by rw [hport]; exact hr k k.lt_succ_self) (by rwa [hsame.phase_eq])]
    · rw [advance_cmdReject, polled_cmdReject, decide_eq_true_eq, command_ne_nop_iff, hport, Nat.add_sub_cancel]

/-- Settles O16: the run writes the pulses only, and no idle phase drives the line. -/
theorem fatalAndClosedAreTerminal : Obligations.FatalAndClosedAreTerminal := by
  intro k s hi hp hr
  obtain ⟨t, ht, hsame, hpulses⟩ := steps_of_terminal hp hr
  have hoe : s.lineOe = false := by rcases hp with hp | hp <;> simpa [hp] using hi.r30.oeHandshake
  exact ⟨t, ht, hsame.lineOe_eq.trans hoe, hsame, hpulses⟩

end Sys2Proof.Machine
end

section
/-! SUPPORT. What a step writes to the frame (20_memory.md R40). -/

namespace Sys2Proof.Machine

/-- Of the micro-operations only the retry leads into `HS_LOW`, and it clears the frame. -/
theorem MicroEffect.frame_cleared {s u : State} (h : MicroEffect s u) (hu : u.phase = Phase.hsLow)
    (hl : s.phase ≠ Phase.hsLow) (hsam : s.phase ≠ Phase.sampling) : u.frame = [] := by
  cases h with
  | retry => rfl
  | idle | lowHold | highHold => exact absurd hu hl
  | count h | saturate h | skip h | append h => exact absurd h hsam
  | lowEnd | highEnd | accept | assemble => simp at hu

/-- Where no attempt starts, an append writes one byte and nothing else writes any. -/
theorem MicroEffect.read_frame {s u : State} (h : MicroEffect s u) (hp : u.phase = Phase.hsLow → s.phase = Phase.hsLow)
    {a : Nat} (ha : ¬ (s.phase = Phase.sampling ∧ s.port.lineIn ≠ s.lastLevel ∧ 4 ≤ s.tIndex.toNat ∧
      s.tIndex.toNat % 2 = 0 ∧ a = s.bitCount.toNat >>> 3)) : Memory.read u.frame a = Memory.read s.frame a := by
  cases h with
  | append h hl hc => exact read_write_other _ _ fun hk => ha ⟨h, hl, hc.1, hc.2, hk⟩
  | retry h => simp [h] at hp
  | _ => rfl

/-- Settles O50: `TAKE` and the retry clear the frame, and of the other steps only an append writes to it. -/
theorem frameBytesAreWrittenOnlyBy : Obligations.FrameBytesAreWrittenOnlyBy := by
  intro s t hr hs
  rcases step_effect hr hs with ⟨-, hp, rfl⟩ | ⟨f, -, hp, rfl⟩ | ⟨-, hp, rfl⟩ | ⟨-, u, hu, rfl⟩
  · refine ⟨fun h => ?_, fun _ _ _ => rfl⟩
    cases hi : s.port.initOk <;> simp [hi] at h
  · exact ⟨fun _ _ _ _ => rfl, fun h => by simp [hp] at h⟩
  · exact ⟨fun h => by simp at h, fun _ _ _ => rfl⟩
  · refine ⟨fun h hl hsam a => ?_, fun h a ha => hu.read_frame h ha⟩
    rw [advance_frame, hu.frame_cleared h hl hsam, read_nil]

end Sys2Proof.Machine
end

section
/-! SUPPORT. Which input ports a step reads (10_state.md R24). -/

namespace Sys2Proof.Machine

/-- With other inputs to come a micro-operation does the same, if in `SAMPLING` they show the same `line_in` and in `ASSEMBLE` the
same `time_in`. -/
theorem MicroEffect.congr_inputs {s u : State} (h : MicroEffect s u) {ps : List PortIn}
    (hline : s.phase = Phase.sampling → ({ s with inputs := ps } : State).port.lineIn = s.port.lineIn)
    (htime : s.phase = Phase.assemble → ({ s with inputs := ps } : State).port.timeIn = s.port.timeIn) :
    MicroEffect { s with inputs := ps } { u with inputs := ps } := by
  cases h with
  | idle h => exact .idle h
  | lowHold h hc => exact .lowHold h hc
  | lowEnd h hc => exact .lowEnd h hc
  | highHold h hc => exact .highHold h hc
  | highEnd h hc => exact .highEnd h hc
  | count h hl hc => exact .count h ((hline h).trans hl) hc
  | saturate h hl hc => exact .saturate h ((hline h).trans hl) hc
  | skip h hl hc =>
    rw [← hline h] at hl ⊢
    exact .skip h hl hc
  | append h hl hc hb =>
    rw [← hline h] at hl ⊢
    exact .append h hl hc hb
  | accept h hc => exact .accept h hc
  | retry h hc hf => exact .retry h hc hf
  | assemble h =>
    rw [← htime h]
    exact .assemble h

theorem MicroFault.congr_inputs {s : State} {r : Fault} (h : MicroFault s r) {ps : List PortIn}
    (hline : s.phase = Phase.sampling → ({ s with inputs := ps } : State).port.lineIn = s.port.lineIn) :
    MicroFault { s with inputs := ps } r := by
  cases h with
  | reserved h => exact .reserved h
  | beyond h hl hc hb => exact .beyond h (by rwa [hline h]) hc hb

/-- A fault of the micro-operation is one of the step. -/
theorem step_of_microFault {s : State} {r : Fault} (hr : s.port.rst = false) (ha : ¬ s.accepts)
    (h : MicroFault s.polled r) : step s = .fault r := by
  have he : exec (decodePhase s.phase) s.polled = .fault r := h.exec_eq
  rw [step_of_not_accepts hr ha, he, andThen_fault]

/-- Two states that differ in the inputs to come, by the record of ports of this step, which agrees wherever the block looks: at
`rst` and the command in every step, at `init_ok` where it accepts `INIT`, at `line_in` in `SAMPLING` and at `time_in` in
`ASSEMBLE` (10_state.md R24). -/
structure SeenAlike (s s' : State) : Prop where
  eq : s' = { s with inputs := s'.inputs }
  later : s'.inputs.tail = s.inputs.tail
  rst : s'.port.rst = s.port.rst
  command : s'.command = s.command
  initOk : s.phase = Phase.uninit → s.command = 0b010#3 → s'.port.initOk = s.port.initOk
  lineIn : s.phase = Phase.sampling → s'.port.lineIn = s.port.lineIn
  timeIn : s.phase = Phase.assemble → s'.port.timeIn = s.port.timeIn

section
variable {s s' : State} (h : SeenAlike s s')
include h

theorem SeenAlike.phase : s'.phase = s.phase := (congrArg State.phase h.eq :)

theorem SeenAlike.clearPulses_eq : s'.clearPulses = { s.clearPulses with inputs := s'.inputs } :=
  (congrArg State.clearPulses h.eq :)

theorem SeenAlike.polled_eq : s'.polled = { s.polled with inputs := s'.inputs } := by
  rw [State.polled, h.command, h.eq]
  rfl

/-- The record of ports that tells two such states apart is gone after the step. -/
theorem SeenAlike.advance_eq {u : State} (hu : u.inputs = s.inputs) :
    ({ u with inputs := s'.inputs } : State).advance = u.advance := by
  rw [State.advance, State.advance, hu, ← h.later]

theorem SeenAlike.step_of_accepts (hr : s.port.rst = false) (ha : s.accepts) : step s' = step s := by
  have hr' := h.rst.trans hr
  rcases State.accepts_cases ha with ⟨hc, hp⟩ | ⟨f, hc, hp⟩ | ⟨hc, hp⟩
  · rw [step_of_init hr hc hp, step_of_init hr' (h.command.trans hc) (h.phase.trans hp), h.initOk hp hc, h.clearPulses_eq]
    simp only [State.advance, clearPulses_inputs, h.later]
  · rw [step_of_take hr hc hp, step_of_take hr' (h.command.trans hc) (h.phase.trans hp), h.clearPulses_eq]
    simp only [State.advance, startAttempt, clearPulses_inputs, h.later]
  · rw [step_of_destroy hr hc hp, step_of_destroy hr' (h.command.trans hc) (h.phase.trans hp), h.clearPulses_eq]
    simp only [State.advance, clearPulses_inputs, h.later]

theorem SeenAlike.step_of_not_accepts (hr : s.port.rst = false) (ha : ¬ s.accepts) : step s' = step s := by
  have hr' := h.rst.trans hr
  have ha' : ¬ s'.accepts := by rwa [State.accepts, h.command, h.phase]
  have hline : s.phase = Phase.sampling → ({ s.polled with inputs := s'.inputs } : State).port.lineIn = s.port.lineIn := by
    rw [← h.polled_eq]
    exact h.lineIn
  have htime : s.phase = Phase.assemble → ({ s.polled with inputs := s'.inputs } : State).port.timeIn = s.port.timeIn := by
    rw [← h.polled_eq]
    exact h.timeIn
  rcases micro_effect_or_fault s.polled with ⟨u, hu⟩ | ⟨r, hu⟩
  · have hu' := hu.congr_inputs hline htime
    rw [← h.polled_eq] at hu'
    rw [step_of_microEffect hr ha hu, step_of_microEffect hr' ha' hu', h.advance_eq hu.inputs_eq]
  · have hu' := hu.congr_inputs hline
    rw [← h.polled_eq] at hu'
    rw [step_of_microFault hr ha hu, step_of_microFault hr' ha' hu']

theorem SeenAlike.step_eq : step s' = step s := by
  cases hr : s.port.rst with
  | true =>
    have hd : s'.draws = s.draws := (congrArg State.draws h.eq :)
    rw [step_of_reset hr, step_of_reset (h.rst.trans hr), h.later, hd]
  | false => exact (em s.accepts).elim (h.step_of_accepts hr) (h.step_of_not_accepts hr)
end

/-- Settles O48: a port that the rules do not look at in this step makes no difference to what the block sees. -/
theorem portsAreReadOnlyWhereTheRulesSay : Obligations.PortsAreReadOnlyWhereTheRulesSay := by
  refine fun s p ps => ⟨fun hp x => ?_, fun hp x => ?_, fun hp x => ?_, fun hv x => ?_⟩
  · exact SeenAlike.step_eq ⟨rfl, rfl, rfl, rfl, fun _ _ => rfl, fun h => absurd h hp, fun _ => rfl⟩
  · exact SeenAlike.step_eq ⟨rfl, rfl, rfl, rfl, fun _ _ => rfl, fun _ => rfl, fun h => absurd h hp⟩
  · refine SeenAlike.step_eq ⟨rfl, rfl, rfl, rfl, fun h hc => absurd ?_ hp, fun _ => rfl, fun _ => rfl⟩
    have hv := (command_ne_nop_iff { s with inputs := p :: ps }).1 (by rw [hc]; decide)
    exact ⟨h, hv.1, (command_of_valid hv.1).symm.trans hc⟩
  · refine SeenAlike.step_eq ⟨rfl, rfl, rfl, ?_, fun _ _ => rfl, fun _ => rfl, fun _ => rfl⟩
    exact (command_of_not_valid (s := { s with inputs := { p with cmd := x } :: ps }) hv).trans
      (command_of_not_valid (s := { s with inputs := p :: ps }) hv).symm

end Sys2Proof.Machine
end

section
/-! SUPPORT. The sampling timeout and the verdict that follows it (60_exceptions.md section 1). -/

namespace Sys2Proof.Machine

theorem State.Inv.bitCount_lt_iff_stAbort {s : State} (hi : s.Inv) (hp : s.phase = Phase.validate) :
    s.bitCount.toNat < 40 ↔ s.stAbort = true := by
  have hfull := hi.r31.countFull
  have hle := hi.r31.countLe
  have ht := hi.r30.tIndexLe
  rw [hi.phases.passOver hp]
  simp only [Config.maxTimings] at ht ⊢
  omega

/-- The step of the sampling timeout (40_sampler.md R94). -/
theorem step_of_timeout {s : State} (hp : s.phase = Phase.sampling) (hr : s.port.rst = false)
    (hl : s.port.lineIn = s.lastLevel) (hs : s.spinCount.toNat = 254) :
    step s = .next ({ s.polled with spinCount := 255, stAbort := true, phase := Phase.validate } : State).advance :=
  step_of_sample hp hr (exec_sample_saturate (s := s.polled) hl hs)

/-- Settles O39: a pass that saturates has fewer than 40 bits, which the next step finds short. -/
theorem timeoutIsFollowedByShortFrame : Obligations.TimeoutIsFollowedByShortFrame := by
  refine ⟨fun s hi hp => hi.bitCount_lt_iff_stAbort hp, fun s hi hp hr hr1 hl hs => ?_⟩
  have ht := step_of_timeout hp hr hl (by rw [hs]; rfl)
  have hshort := (shortFrame_iff _).2 (((step_keeps_inv hi ht).bitCount_lt_iff_stAbort rfl).2 rfl)
  have hr' := (congrArg PortIn.rst (step_portAt ht 0)).trans hr1
  cases hf : s.force with
  | true =>
    have hu := step_of_microEffect hr' (not_accepts_of_phase (by simp) (by simp)) (.retry rfl (.inl hshort) hf)
    exact ⟨_, _, ht, hu, rfl, rfl, hshort, rfl, fun _ => ⟨rfl, rfl, fun _ => rfl⟩, by simp⟩
  | false =>
    have hu := step_of_microEffect hr' (not_accepts_of_phase (by simp) (by simp)) (.accept rfl (.inr hf))
    exact ⟨_, _, ht, hu, rfl, rfl, hshort, congrArg (fun b => !b && _) hshort, by simp,
      fun _ => ⟨rfl, rfl, fun _ => rfl⟩⟩

end Sys2Proof.Machine
end

section
/-! SUPPORT. A step in terms of decoded words (44_session.md R168) and of table words (log 1, log 3). -/

namespace Sys2Proof.Machine

theorem andThen_assoc (o : StepOutcome) (f g : State → StepOutcome) :
    andThen (andThen o f) g = andThen o fun s => andThen (f s) g := by
  cases o <;> rfl

/-- A step that is no reset, with the operations that the two selectors hold. -/
theorem step_eq_two_operations {s : State} (hr : s.port.rst = false) :
    step s = andThen (exec (decodeCmd s.command) s.clearPulses)
      fun t => andThen (exec (decodePhase s.phase) t) fun u => .next u.advance := by
  rw [step_of_no_reset hr, runOperations, andThen_assoc]

/-- Settles O5: each selector, right-aligned in a byte, decodes to the operation that it holds. -/
theorem stepRunsTheDecodedOperations : Obligations.StepRunsTheDecodedOperations := by
  intro s c p hr hc hp
  rw [decode_cmd_setWidth] at hc
  rw [decode_phase_setWidth] at hp
  cases hc
  cases hp
  exact step_eq_two_operations hr

/-- Settles O6: a command word is placed on the command port and a phase code in `phase`, where a step looks for it. -/
theorem fetchWordIsRunByTheNextStep : Obligations.FetchWordIsRunByTheNextStep := by
  intro s nbits w i h
  rcases decodeTableWord_eq_some h with ⟨hfmt, rfl⟩ | ⟨hfmt, rfl⟩
  · have hplace : s.withFetchWord nbits w = s.placeCmd (BitVec.ofNat 3 w) := by
      rw [State.withFetchWord, placeWord, hfmt]
    refine ⟨fun _ => ?_, fun h => ?_⟩
    · rw [hplace]
      exact step_eq_two_operations rfl
    · rw [format_decodeCmd] at h
      cases h
  · have hplace : s.withFetchWord nbits w = s.placePhase (BitVec.ofNat 4 w) := by
      rw [State.withFetchWord, placeWord, hfmt]
    refine ⟨fun h => ?_, fun _ => ?_⟩
    · rw [format_decodePhase] at h
      cases h
    · rw [hplace]
      exact step_of_nop rfl rfl

end Sys2Proof.Machine
end

section
/-! SUPPORT. How many bits `Decode` appends, and where each of them stands (20_memory.md R41, 41_decoder.md R115, R116). -/

namespace Sys2Proof.Machine

/-- At most 84 observations have a `Decode`. -/
theorem exists_decoded {obs : List Observation} (h : obs.length ≤ 84) : ∃ m bc, Decoded obs m bc := by
  obtain ⟨m, bc, -, hd⟩ := decoded_nil.stream (rest := obs) (by simpa using h)
  exact ⟨m, bc, hd⟩

/-- `Decode` goes on from what it has decoded. -/
theorem Decoded.decodeObs_append {xs : List Observation} {m : Memory} {bc : BitVec 6} (h : Decoded xs m bc)
    (ys : List Observation) : decodeObs (xs ++ ys) = decodeFrom xs.length (Memory.bytes m) bc.toNat ys := by
  rw [decodeObs, decodeFrom_append, ← decodeObs, h.decode, Option.bind_some, Nat.zero_add]

/-- The 85th observation carries a 41st bit, for which the frame has no byte (20_memory.md R42). -/
theorem decodeObs_of_length_gt {obs : List Observation} (h : 84 < obs.length) : decodeObs obs = none := by
  obtain ⟨m, bc, hd⟩ := exists_decoded (obs := obs.take 84) (by simp)
  have hlen : (obs.take 84).length = 84 := List.length_take_of_le (by omega)
  have hbc : bc.toNat = 40 := by rw [hd.count, hlen]
  rw [← List.take_append_drop 84 obs, hd.decodeObs_append, hlen, hbc, List.drop_eq_getElem_cons h, decodeFrom,
    if_pos (by decide)]
  rfl

/-- Settles O30: the frame has a byte for each of the 40 bits of 84 observations, and for no other. -/
theorem atMostFortyBitsAreDecoded : Obligations.AtMostFortyBitsAreDecoded := by
  refine ⟨fun obs h => ?_, fun obs h => decodeObs_of_length_gt h⟩
  obtain ⟨m, bc, hd⟩ := exists_decoded h
  exact ⟨_, _, hd.decode, rfl, hd.count, by rw [hd.count]; omega⟩

/-! ## The bits of the frame -/

/-- Where bit `k` of `n` stands in its byte: at the top of a full byte the first one, and in the byte being filled right-aligned
(30_encoding.md R74). -/
def bitPosition (n k : Nat) : Nat := min 8 (n - 8 * (k / 8)) - 1 - k % 8

/-- The frame holds, for each bit so far, whether the duration that it stands for exceeds the threshold (41_decoder.md R114). -/
def HoldsBits (obs : List Observation) (m : Memory) (n : Nat) : Prop :=
  ∀ k < n, ∀ o, obs[4 + 2 * k]? = some o → (Memory.read m (k / 8)).getLsbD (bitPosition n k) = classify o.duration

/-- An append moves the bits of its byte up by one and leaves the other bytes. -/
theorem getLsbD_append_old {m : Memory} (hm : Memory.wf m) {n k : Nat} (hk : k < n) (b : Bool) :
    (Memory.read (Memory.write m (n / 8) (shiftIn (Memory.read m (n / 8)) b)) (k / 8)).getLsbD (bitPosition (n + 1) k) =
      (Memory.read m (k / 8)).getLsbD (bitPosition n k) := by
  by_cases hbyte : k / 8 = n / 8
  · have hpos : bitPosition (n + 1) k = bitPosition n k + 1 := by simp only [bitPosition]; omega
    have hlt : bitPosition n k + 1 < 8 := by simp only [bitPosition]; omega
    rw [hbyte, read_write_same _ _ _ hm.1, hpos, shiftIn_getLsbD_succ, decide_eq_true hlt, Bool.true_and]
  · have hpos : bitPosition (n + 1) k = bitPosition n k := by simp only [bitPosition]; omega
    rw [read_write_other _ _ hbyte, hpos]

/-- The appended bit stands at bit 0. -/
theorem getLsbD_append_new {m : Memory} (hm : Memory.wf m) (n : Nat) (b : Bool) :
    (Memory.read (Memory.write m (n / 8) (shiftIn (Memory.read m (n / 8)) b)) (n / 8)).getLsbD (bitPosition (n + 1) n) =
      b := by
  have hpos : bitPosition (n + 1) n = 0 := by simp only [bitPosition]; omega
  rw [read_write_same _ _ _ hm.1, hpos, shiftIn_getLsbD_zero]

/-- The decoder's step keeps the bits in their places. -/
theorem HoldsBits.step {obs : List Observation} {m m' : Memory} {bc bc' : BitVec 6} (h : HoldsBits obs m bc.toNat)
    (hd : Decoded obs m bc) (o : Observation) (hs : decodeStep obs.length o.duration m bc = .ok (m', bc')) :
    HoldsBits (obs ++ [o]) m' bc'.toNat := by
  have hcount := hd.count
  have old : ∀ k < bc.toNat, (obs ++ [o])[4 + 2 * k]? = obs[4 + 2 * k]? := fun k hk =>
    List.getElem?_append_left (by omega)
  rcases decodeStep_ok hs with ⟨-, rfl, rfl⟩ | ⟨hc, hb, rfl, rfl⟩
  · intro k hk p hp
    exact h k hk p (by rwa [old k hk] at hp)
  · have hbc : (bc + 1).toNat = bc.toNat + 1 := by bv_omega
    rw [hbc, shiftRight_three]
    intro k hk p hp
    rcases Nat.lt_succ_iff_lt_or_eq.1 hk with hk | rfl
    · rw [getLsbD_append_old hd.canonical hk]
      exact h k hk p (by rwa [old k hk] at hp)
    · have hlast : 4 + 2 * bc.toNat = obs.length := by omega
      rw [hlast, List.getElem?_concat_length] at hp
      cases hp
      exact getLsbD_append_new hd.canonical _ _

/-- Up to 84 observations, the frame that `Decode` leaves holds their bits. -/
theorem exists_decoded_holdsBits {obs : List Observation} (h : obs.length ≤ 84) :
    ∃ m bc, Decoded obs m bc ∧ HoldsBits obs m bc.toNat := by
  induction obs using List.reverseRecOn with
  | nil => exact ⟨[], 0, decoded_nil, fun k hk => absurd hk (Nat.not_lt_zero k)⟩
  | append_singleton obs o ih =>
    rw [List.length_append, List.length_singleton] at h
    obtain ⟨m, bc, hd, hbits⟩ := ih (by omega)
    obtain ⟨m', bc', hs, hd'⟩ := hd.step (by omega) o
    exact ⟨m', bc', hd', hbits.step hd o hs⟩

/-- Settles O31: in a full frame every byte is full, so its first bit is on top. -/
theorem frameBitsAreThresholdedDurations : Obligations.FrameBitsAreThresholdedDurations := by
  intro obs hlen
  obtain ⟨m, bc, hd, hbits⟩ := exists_decoded_holdsBits (obs := obs) (by omega)
  have hbc : bc.toNat = 40 := by rw [hd.count, hlen]
  rw [hbc] at hbits
  refine ⟨Memory.bytes m, by rw [hd.decode, hbc], rfl, fun k hk o byte ho hbyte => ?_⟩
  rw [bytes_getElem? m (by omega)] at hbyte
  cases hbyte
  have hpos : bitPosition 40 k = 7 - k % 8 := by simp only [bitPosition]; omega
  rw [← hpos, hbits k hk o ho]
  rfl

end Sys2Proof.Machine
end

section
/-! SUPPORT. Decimal literals (43_assembler.md R137, R138), the reading record (R140, R141) and the frame port
(20_memory.md R41). -/

namespace Sys2Proof.Machine

/-! ## Numerals -/

/-- The three lengths of a byte's numeral. -/
theorem nd_cases (f : Byte) :
    (f.toNat ≤ 9 ∧ nd f = 1) ∨ (10 ≤ f.toNat ∧ f.toNat ≤ 99 ∧ nd f = 2) ∨ (100 ≤ f.toNat ∧ nd f = 3) := by
  unfold nd
  split_ifs <;> omega

theorem digitChar_toNat {n : Nat} (h : n ≤ 9) : (digitChar n).toNat = 48 + n := by
  interval_cases n <;> rfl

theorem digitChar_ne_point {n : Nat} (h : n ≤ 9) : digitChar n ≠ '.' := by
  intro he
  have hn := digitChar_toNat h
  rw [he] at hn
  have hp : '.'.toNat = 46 := rfl
  omega

/-- A digit is read as its value. -/
theorem digitsValue_digitChar {n : Nat} (h : n ≤ 9) (acc : Nat) (cs : List Char) :
    digitsValue acc (digitChar n :: cs) = digitsValue (10 * acc + n) cs := by
  have hz : '0'.toNat = 48 := rfl
  have h9 : '9'.toNat = 57 := rfl
  rw [digitsValue, digitChar_toNat h, hz, h9, if_pos (by omega), Nat.add_sub_cancel_left]

/-- A byte's numeral is a list of digits, read as its value, of the length that `nd` says. -/
theorem numeral_spec (b : Byte) :
    digitsValue 0 (numeral b) = some b.toNat ∧ (numeral b).length = nd b ∧ ∀ c ∈ numeral b, c ≠ '.' := by
  have hb := b.isLt
  rcases nd_cases b with ⟨h, hn⟩ | ⟨h, h', hn⟩ | ⟨h, hn⟩
  · have he : numeral b = [digitChar b.toNat] := if_pos h
    rw [he, hn, digitsValue_digitChar h]
    exact ⟨by simp [digitsValue], rfl, by simpa using digitChar_ne_point h⟩
  · have he : numeral b = [digitChar (b.toNat / 10), digitChar (b.toNat % 10)] :=
      (if_neg (by omega)).trans (if_pos h')
    have h1 : b.toNat / 10 ≤ 9 := by omega
    have h2 : b.toNat % 10 ≤ 9 := by omega
    rw [he, hn, digitsValue_digitChar h1, digitsValue_digitChar h2]
    refine ⟨congrArg some (by omega), rfl, ?_⟩
    simpa using ⟨digitChar_ne_point h1, digitChar_ne_point h2⟩
  · have he : numeral b = [digitChar (b.toNat / 100), digitChar (b.toNat / 10 % 10), digitChar (b.toNat % 10)] :=
      (if_neg (by omega)).trans (if_neg (by omega))
    have h1 : b.toNat / 100 ≤ 9 := by omega
    have h2 : b.toNat / 10 % 10 ≤ 9 := by omega
    have h3 : b.toNat % 10 ≤ 9 := by omega
    rw [he, hn, digitsValue_digitChar h1, digitsValue_digitChar h2, digitsValue_digitChar h3]
    refine ⟨congrArg some (by omega), rfl, ?_⟩
    simpa using ⟨digitChar_ne_point h1, digitChar_ne_point h2, digitChar_ne_point h3⟩

theorem numeral_ne_nil (b : Byte) : numeral b ≠ [] := by
  intro h
  have hlen := (numeral_spec b).2.1
  rw [h, List.length_nil] at hlen
  rcases nd_cases b with ⟨-, hn⟩ | ⟨-, -, hn⟩ | ⟨-, hn⟩ <;> omega

/-- The literal is cut at its one point, and each side is read as its byte. -/
theorem parseDecimal_decStr (i f : Byte) : parseDecimal (decStr i f) = some (decVal i f) := by
  obtain ⟨hi, -, hdigits⟩ := numeral_spec i
  obtain ⟨hf, hlen, -⟩ := numeral_spec f
  have hall : ∀ c ∈ numeral i, (c != '.') = true := fun c hc => bne_iff_ne.2 (hdigits c hc)
  have htake : (decStr i f).takeWhile (· != '.') = numeral i := by
    rw [decStr, List.takeWhile_append_of_pos hall, List.takeWhile_cons_of_neg (by simp), List.append_nil]
  have hdrop : (decStr i f).dropWhile (· != '.') = '.' :: numeral f := by
    rw [decStr, List.dropWhile_append_of_pos hall, List.dropWhile_cons_of_neg (by simp)]
  simp [parseDecimal, htake, hdrop, numeral_ne_nil, hi, hf, hlen, decVal]

/-! ## Values -/

/-- The fraction byte as a number of thousandths: as many digits as it has, and zeros after them. -/
def thousandths (f : Byte) : Nat := f.toNat * 10 ^ (3 - nd f)

theorem thousandths_le (f : Byte) : thousandths f ≤ 990 := by
  have hf := f.isLt
  unfold thousandths
  rcases nd_cases f with ⟨h, hn⟩ | ⟨-, h, hn⟩ | ⟨-, hn⟩ <;> rw [hn] <;> omega

theorem decVal_eq (i f : Byte) : decVal i f = i.toNat + thousandths f / 1000 := by
  unfold decVal thousandths
  rcases nd_cases f with ⟨-, hn⟩ | ⟨-, -, hn⟩ | ⟨-, hn⟩ <;> rw [hn] <;> push_cast <;> ring

theorem decVal_congr {f g : Byte} (h : thousandths f = thousandths g) (i : Byte) : decVal i f = decVal i g := by
  rw [decVal_eq, decVal_eq, h]

theorem decVal_lt {f g : Byte} (h : thousandths f < thousandths g) (i : Byte) : decVal i f < decVal i g := by
  rw [decVal_eq, decVal_eq]
  have hq : (thousandths f : Rat) < thousandths g := Nat.cast_lt.2 h
  linarith

theorem decVal_of_thousandths (i : Byte) {f : Byte} {n : Nat} (h : thousandths f = n) :
    decVal i f = i.toNat + (n : Rat) / 1000 := by
  rw [decVal_eq, h]

/-- Settles O41: the literal is read digit by digit, and its value is a number of thousandths. -/
theorem decValIsTheDecimalLiteral : Obligations.DecValIsTheDecimalLiteral := by
  have h255 : (255 : Byte).toNat = 255 := rfl
  refine ⟨fun i f => ?_, ?_, ?_⟩
  · have hi : (i.toNat : Rat) ≤ 255 := by exact_mod_cast Nat.le_of_lt_succ i.isLt
    have hf : (thousandths f : Rat) ≤ 990 := by exact_mod_cast thousandths_le f
    refine ⟨parseDecimal_decStr i f, ?_, ?_, 1000 * i.toNat + thousandths f, ?_⟩ <;> rw [decVal_eq]
    · positivity
    · linarith
    · push_cast
      ring
  · rw [decVal_of_thousandths 255 (f := 99) (n := 990) rfl, h255]
    norm_num
  · rw [decVal_of_thousandths 255 (f := 255) (n := 255) rfl, h255]
    norm_num

/-- Settles O42: zeros after the fraction's own digits do not change its thousandths. -/
theorem fractionByteIsALiteralSuffix : Obligations.FractionByteIsALiteralSuffix := by
  refine fun i => ⟨decVal_congr (by decide) i, decVal_congr (by decide) i, decVal_congr (by decide) i,
    decVal_congr (by decide) i, decVal_congr (by decide) i, decVal_congr (by decide) i, ?_, decVal_lt (by decide) i, ?_⟩
  · rw [decVal_of_thousandths i (f := 0) (n := 0) rfl]
    norm_num
  · rw [decVal_of_thousandths i (f := 7) (n := 700) rfl]
    norm_num

/-! ## The record -/

/-- Fields with equal values have equal images, since the image is a function of the value (43_assembler.md R141). -/
theorem image_of_reading (s : State) :
    s.reading.fields.map (·.image) = (s.reading.fields.map (·.value)).map Config.toFloat := rfl

/-- Settles O43: the record of the registers that `ASSEMBLE` has written. -/
theorem readingIsBuiltFromTheDataBytes : Obligations.ReadingIsBuiltFromTheDataBytes := by
  refine ⟨fun s f0 f1 f2 f3 f4 hframe => ?_, fun s t h => ?_⟩
  · exact ⟨_, assembleWritesTheRecord s f0 f1 f2 f3 f4 hframe, rfl, rfl, rfl⟩
  · rw [image_of_reading, image_of_reading, h]

/-- Settles O44: the registers of the record are the four data bytes and the capture time. -/
theorem recordDependsOnDataBytesOnly : Obligations.RecordDependsOnDataBytesOnly := by
  intro s t s' t' hs ht hframe htime
  rw [exec_assemble] at hs ht
  cases hs
  cases ht
  simp only [State.frameBytes, List.take_succ_cons, List.take_zero, List.cons.injEq, and_true] at hframe
  obtain ⟨h0, h1, h2, h3⟩ := hframe
  simp only [State.reading, h0, h1, h2, h3, htime, and_self]

/-! ## The frame port -/

/-- Five bytes side by side, the first one on top. -/
theorem fiveBytes_getLsbD (b0 b1 b2 b3 b4 : Byte) {j : Nat} (hj : j < 8) :
    let v := b0 ++ b1 ++ b2 ++ b3 ++ b4
    v.getLsbD (32 + j) = b0.getLsbD j ∧ v.getLsbD (24 + j) = b1.getLsbD j ∧ v.getLsbD (16 + j) = b2.getLsbD j ∧
      v.getLsbD (8 + j) = b3.getLsbD j ∧ v.getLsbD j = b4.getLsbD j := by
  have hsub : 32 + j - 8 = 24 + j ∧ 24 + j - 8 = 16 + j ∧ 16 + j - 8 = 8 + j ∧ 8 + j - 8 = j := by omega
  have hlt : ¬ 32 + j < 8 ∧ ¬ 24 + j < 8 ∧ ¬ 16 + j < 8 ∧ ¬ 8 + j < 8 := by omega
  simp only [BitVec.getLsbD_append, hsub, hlt, hj, if_true, if_false, and_self]

/-- Settles O47: `k >>> 3` names the byte and `7 - (k &&& 7)` the bit, both counted from the top. -/
theorem framePortOrder : Obligations.FramePortOrder := by
  intro s k hk
  have hj : 7 - k % 8 < 8 := by omega
  obtain ⟨h0, h1, h2, h3, h4⟩ := fiveBytes_getLsbD (Memory.read s.frame 0) (Memory.read s.frame 1)
    (Memory.read s.frame 2) (Memory.read s.frame 3) (Memory.read s.frame 4) hj
  rw [shiftRight_three, and_seven]
  have hidx : 39 - k = 8 * (4 - k / 8) + (7 - k % 8) := by omega
  have hbyte : k / 8 < 5 := by omega
  rw [hidx]
  generalize k / 8 = a at hbyte ⊢
  interval_cases a
  · exact h0
  · exact h1
  · exact h2
  · exact h3
  · rw [Nat.sub_self, Nat.mul_zero, Nat.zero_add]; exact h4

end Sys2Proof.Machine
end

section
/-! SUPPORT. The runs of a `TAKE`: a busy run, a non-forced attempt from its start to its reading (44_session.md R162, R163), and
a forced one on a line that stays high (R161). -/

namespace Sys2Proof.Machine

/-! ## Busy steps -/

/-- Only the micro-operation of `ASSEMBLE` leaves `rd_valid = 1` (10_state.md R23). -/
theorem step_rdValid_iff {s t : State} (hr : s.port.rst = false) (hs : step s = .next t) :
    t.rdValid = true ↔ s.phase = Phase.assemble := by
  obtain ⟨-, -, h, -⟩ := recordAndPulseWrites s t hr hs
  exact h

theorem step_rdValid_eq_false {s t : State} (hr : s.port.rst = false) (hs : step s = .next t)
    (ha : s.phase ≠ Phase.assemble) : t.rdValid = false :=
  Bool.eq_false_iff.2 (mt (step_rdValid_iff hr hs).1 ha)

/-- No micro-operation writes `force` (10_state.md R19). -/
theorem MicroEffect.force_eq {s u : State} (h : MicroEffect s u) : u.force = s.force := by cases h <;> rfl

/-- The block is busy with the `TAKE` of an earlier state `s`, and has no reading. -/
structure BusySince (s u : State) : Prop where
  busy : busy u.phase = true
  rdValid : u.rdValid = false
  force : u.force = s.force

theorem BusySince.step {s u v : State} (h : BusySince s u) (hr : u.port.rst = false) (hv : Machine.step u = .next v)
    (ha : u.phase ≠ Phase.assemble) : BusySince s v where
  busy := by
    rw [step_phase_eq hr hv]
    exact State.busy_nextPhase h.busy ha
  rdValid := step_rdValid_eq_false hr hv ha
  force := by
    have hb := h.busy
    rcases step_accepts_or_polls hr hv with ⟨-, he⟩ | ⟨-, w, hw, rfl⟩
    · rcases he.idle with hp | hp <;> rw [hp] at hb <;> cases hb
    · exact hw.force_eq.trans h.force

/-- A run stays busy up to the first step in `ASSEMBLE`. -/
theorem busy_run {s : State} (hi : s.Inv) (h : BusySince s s) {n : Nat} (hr : ∀ i < n, (s.portAt i).rst = false)
    (ha : ∀ j < n, ∀ u, steps j s = .next u → u.phase ≠ Phase.assemble) {j : Nat} (hj : j ≤ n) :
    ∃ u, steps j s = .next u ∧ BusySince s u := by
  induction j with
  | zero => exact ⟨s, rfl, h⟩
  | succ j ih =>
    obtain ⟨u, hu, hb⟩ := ih (by omega)
    obtain ⟨v, hv, -⟩ := step_progress (steps_keep_inv j hi hu)
    have hport : u.port = s.portAt j := steps_portAt hu 0
    exact ⟨v, by rw [steps_last, hu, andThen_next, hv],
      hb.step (by rw [hport]; exact hr j hj) hv (ha j hj u hu)⟩

/-! ## An attempt from its start to its verdict -/

/-- An attempt start under the invariant is the beginning of the handshake. -/
theorem State.Inv.inHandshake {s : State} (hi : s.Inv) (hp : s.phase = Phase.hsLow) (hc : s.hsCount = 0) :
    s.InHandshake 0 := by
  have hoe : s.lineOe = true := hi.r30.oeHandshake.2 (.inl hp)
  exact ⟨fun _ => ⟨hp, by rw [hc]; rfl, hoe, (hi.r30.outLow hoe).2 hp⟩, by omega, by omega⟩

/-- What the attempt start has cleared is what a pass begins with (44_session.md R156, 40_sampler.md R90). -/
theorem inPass_start {s t : State} (hi : s.Inv) (hp : s.phase = Phase.hsLow) (ht : t.Inv) (hsame : SameSampling s t)
    (htp : t.phase = Phase.sampling) : InPass t Level.high 0 [] := by
  obtain ⟨hti, hspin, hframe, -⟩ := hi.phases.handshakeClear (.inl hp)
  obtain ⟨-, -, ha⟩ := ht.passOpen htp
  have hzero : t.tIndex.toNat = 0 := by rw [hsame.tIndex, hti]; rfl
  have hb : t.bitCount = 0 := BitVec.eq_of_toNat_eq (ht.r31.countEarly (by omega))
  refine ⟨htp, ht.r30.levelParity.2 (by rw [hzero]), by rw [hsame.spinCount, hspin]; rfl, by omega, hzero, by simp, ha, ?_⟩
  rw [hsame.frame, hframe, hb]
  exact decoded_nil

/-- Without a reset a pass of the block ends, within the bounds of `SamplePass` (40_sampler.md R99). -/
theorem InPass.ends {s : State} {last : Level} {spin k d : Nat} {obs : List Observation} (h : InPass s last spin obs)
    (ho : PassOpen last spin obs k) (hd : k + d = 21165) (hr : ∀ i < d, (s.portAt i).rst = false) :
    ∃ n r, r.consumed = k + n ∧ PassOver r ∧ PassRun s n r := by
  induction d generalizing s last spin obs k with
  | zero =>
    obtain ⟨-, -, hspin, hlen, -, -, hk⟩ := ho
    omega
  | succ d ih =>
    have hrst : s.port.rst = false := hr 0 (by omega)
    have goesOn : ∀ {t last' spin' obs'}, Machine.step s = .next t → KeptByPass 1 s t → InPass t last' spin' obs' →
        PassOpen last' spin' obs' (k + 1) → ∃ n r, r.consumed = k + n ∧ PassOver r ∧ PassRun s n r := by
      intro t last' spin' obs' ht hkept hin ho'
      obtain ⟨n, r, hn, hover, hrun⟩ := ih hin ho' (by omega) fun i hi => by
        rw [step_portAt ht]
        exact hr (i + 1) (by omega)
      exact ⟨n + 1, r, by omega, hover, hrun.cons h.phase ht hkept⟩
    by_cases hl : s.port.lineIn = last
    · by_cases hs : spin = 254
      · obtain ⟨t, ht, hkept, hafter⟩ := h.step_saturate hrst hl hs
        exact ⟨1, _, rfl, ho.saturate hs, passRun_last h.phase ht hkept hafter⟩
      · obtain ⟨t, ht, hkept, hin⟩ := h.step_count hrst hl hs
        exact goesOn ht hkept hin (ho.count hs)
    · obtain ⟨t, ht, hkept, hcap, hturn⟩ := h.step_turn hrst rfl hl
      by_cases hc : obs.length = 82
      · exact ⟨1, _, rfl, ho.cap hl hc, passRun_last h.phase ht hkept (hcap hc)⟩
      · exact goesOn ht hkept (hturn hc) (ho.turn hl hc)

theorem PassOver.consumed_ge {r : PassResult} (h : PassOver r) : 83 ≤ r.consumed := by
  cases ha : r.aborted with
  | false => exact (h.capped ha).2
  | true => exact Nat.le_trans (by decide) (h.saturated ha).2

/-- Where an attempt stands before its verdict: it has not come to `ASSEMBLE` (44_session.md R169). -/
theorem State.InHandshake.ne_assemble {t : State} {k : Nat} (h : t.InHandshake k) (hk : k < 18040) :
    t.phase ≠ Phase.assemble := by
  rcases Nat.lt_or_ge k 18000 with hlow | hge
  · simp [(h.low hlow).1]
  · simp [(h.high hge hk).1]

/-- An attempt comes to its verdict after the handshake's 18040 steps and the 83 to 21165 of its pass, and not to `ASSEMBLE`
before. -/
theorem attempt_run {s : State} (hi : s.Inv) (hp : s.phase = Phase.hsLow) (hc : s.hsCount = 0)
    (hr : ∀ i < 39205, (s.portAt i).rst = false) :
    ∃ n t, 83 ≤ n ∧ n ≤ 21165 ∧ steps (18040 + n) s = .next t ∧ t.phase = Phase.validate ∧
      ∀ j < 18040 + n, ∀ u, steps j s = .next u → u.phase ≠ Phase.assemble := by
  have hstart := hi.inHandshake hp hc
  obtain ⟨t, ht, hat, hsame⟩ := handshake_run hstart (Nat.le_refl 18040) fun i hik => hr i (by omega)
  have hin := inPass_start hi hp (steps_keep_inv _ hi ht) hsame (hat.released rfl).1
  obtain ⟨n, r, hn, hover, hrun⟩ := hin.ends passOpen_start (Nat.zero_add 21165) fun i hik => by
    rw [steps_portAt ht]
    exact hr (18040 + i) (by omega)
  have hge := hover.consumed_ge
  have hle := hover.consumed_le
  obtain ⟨v, hv, -, hafter⟩ := hrun.ends
  refine ⟨n, v, by omega, by omega, by rw [steps_add, ht, andThen_next, hv], hafter.phase, fun j hj u hu => ?_⟩
  rcases Nat.lt_or_ge j 18040 with hlt | hgt
  · obtain ⟨u', hu', hau, -⟩ := handshake_run hstart (Nat.le_of_lt hlt) fun i hij => hr i (by omega)
    rw [hu] at hu'
    cases hu'
    exact hau.ne_assemble hlt
  · obtain ⟨i, rfl⟩ := Nat.exists_eq_add_of_le hgt
    obtain ⟨u', hu', hp'⟩ := hrun.sampling i (by omega)
    rw [steps_add, ht, andThen_next, hu'] at hu
    cases hu
    simp [hp']

/-- A verdict of a non-forced `TAKE` is followed by `ASSEMBLE` (44_session.md R160). -/
theorem step_of_validate_not_forced {s t : State} (hr : s.port.rst = false) (hp : s.phase = Phase.validate)
    (hf : s.force = false) (hs : step s = .next t) : t.phase = Phase.assemble := by
  rw [step_phase_eq hr hs]
  simp [State.nextPhase, hp, hf]

/-- `ASSEMBLE` returns to `READY` with the reading (43_assembler.md R144). -/
theorem step_of_assemble {s t : State} (hr : s.port.rst = false) (hp : s.phase = Phase.assemble)
    (hs : step s = .next t) : t.phase = Phase.ready ∧ t.rdValid = true := by
  refine ⟨?_, (step_rdValid_iff hr hs).2 hp⟩
  rw [step_phase_eq hr hs]
  simp [State.nextPhase, hp]

/-- The state that an accepted `TAKE f` leaves is busy since itself. -/
theorem busySince_take (s : State) (f : Bool) :
    BusySince (startAttempt { s.clearPulses with force := f }).advance
      (startAttempt { s.clearPulses with force := f }).advance := ⟨rfl, rfl, rfl⟩

/-- A non-forced attempt is busy up to its `ASSEMBLE` step, which leaves `READY` with the reading. -/
theorem nonForcedAttempt_run {s : State} (hi : s.Inv) (hp : s.phase = Phase.hsLow) (hc : s.hsCount = 0)
    (hf : s.force = false) (hbusy : BusySince s s) (hr : ∀ i < 39207, (s.portAt i).rst = false) :
    ∃ n t, 83 ≤ n ∧ n ≤ 21165 ∧ steps (18040 + n + 1 + 1) s = .next t ∧ t.phase = Phase.ready ∧ t.rdValid = true ∧
      ∀ j ≤ 18040 + n + 1, ∃ u, steps j s = .next u ∧ BusySince s u := by
  obtain ⟨n, v, hge, hle, hv, hvp, hbefore⟩ := attempt_run hi hp hc fun i hik => hr i (by omega)
  have hrun : ∀ j ≤ 18040 + n + 1, ∃ u, steps j s = .next u ∧ BusySince s u := fun j hj =>
    busy_run hi hbusy (n := 18040 + n + 1) (fun i hik => hr i (by omega)) (fun j hj u hu => by
      rcases Nat.lt_succ_iff_lt_or_eq.1 hj with hlt | rfl
      · exact hbefore j hlt u hu
      · rw [hv] at hu
        cases hu
        simp [hvp]) hj
  have hrst : ∀ {j u}, j < 39207 → steps j s = .next u → u.port.rst = false := fun hj hu => by
    rw [State.port, steps_portAt hu]
    exact hr _ hj
  obtain ⟨v', hv', hvb⟩ := hrun (18040 + n) (by omega)
  rw [hv] at hv'
  cases hv'
  obtain ⟨w, hw, hwb⟩ := hrun (18040 + n + 1) (Nat.le_refl _)
  have hvw : step v = .next w := by rwa [steps_last, hv, andThen_next] at hw
  have hwp := step_of_validate_not_forced (hrst (by omega) hv) hvp (hvb.force.trans hf) hvw
  obtain ⟨t, ht, -⟩ := step_progress (steps_keep_inv _ hi hw)
  obtain ⟨htp, htv⟩ := step_of_assemble (hrst (by omega) hw) hwp ht
  exact ⟨n, t, hge, hle, by rw [steps_last, hw, andThen_next, ht], htp, htv, hrun⟩

/-- Settles O57: one step for the accepted `TAKE`, and then the attempt's run to its reading. -/
theorem nonForcedTakeTerminates : Obligations.NonForcedTakeTerminates := by
  intro s hi hp hv hc hr
  have hs := step_of_take (f := false) (hr 0 (by omega)) ((command_of_valid hv).trans hc) hp
  obtain ⟨n, t, hge, hle, ht, htp, htv, hbusy⟩ := nonForcedAttempt_run (step_keeps_inv hi hs) rfl rfl rfl
    (busySince_take s false) fun i hik => by
      rw [step_portAt hs]
      exact hr (i + 1) (by omega)
  refine ⟨18040 + n + 1 + 1 + 1, t, by omega, by omega, by rw [steps_succ, hs, andThen_next, ht], htp, htv, fun j h0 hj => ?_⟩
  obtain ⟨i, rfl⟩ := Nat.exists_eq_add_one.2 h0
  obtain ⟨u, hu, hub⟩ := hbusy i (by omega)
  exact ⟨u, by rw [steps_succ, hs, andThen_next, hu], hub.busy, hub.rdValid⟩

/-! ## A forced attempt on a dead line -/

/-- A forced attempt that has seen no transition, before its verdict (44_session.md R161). -/
structure State.Silent (s : State) : Prop where
  inv : s.Inv
  force : s.force = true
  tIndex : s.tIndex = 0
  phase : s.phase = Phase.hsLow ∨ s.phase = Phase.hsHigh ∨ s.phase = Phase.sampling ∨ s.phase = Phase.validate

theorem State.Silent.busy {s : State} (h : s.Silent) : busy s.phase = true := by
  rcases h.phase with hp | hp | hp | hp <;> rw [hp] <;> rfl

theorem State.Silent.ne_assemble {s : State} (h : s.Silent) : s.phase ≠ Phase.assemble := by
  rcases h.phase with hp | hp | hp | hp <;> simp [hp]

theorem State.Silent.not_accepts {s : State} (h : s.Silent) : ¬ s.accepts :=
  not_accepts_of_phase (by rcases h.phase with hp | hp | hp | hp <;> simp [hp])
    (by rcases h.phase with hp | hp | hp | hp <;> simp [hp])

theorem State.Silent.lastLevel {s : State} (h : s.Silent) : s.lastLevel = Level.high :=
  h.inv.r30.levelParity.2 (by rw [h.tIndex]; rfl)

theorem State.Silent.shortFrame {s : State} (h : s.Silent) : s.shortFrame = true := by
  rw [shortFrame_iff, h.inv.r31.countEarly (by rw [h.tIndex]; decide)]
  decide

/-- On a high line a silent attempt counts up to its timeout, and its verdict starts the next one. -/
theorem State.Silent.micro {s u : State} (h : s.Silent) (hline : s.port.lineIn = Level.high) (hu : MicroEffect s u) :
    u.Silent := by
  have hphase := h.phase
  have hi := hu.inv h.inv
  have hsame : s.port.lineIn = s.lastLevel := hline.trans h.lastLevel.symm
  cases hu with
  | lowHold | highHold | count => exact ⟨hi, h.force, h.tIndex, h.phase⟩
  | lowEnd => exact ⟨hi, h.force, h.tIndex, by simp⟩
  | highEnd => exact ⟨hi, h.force, h.tIndex, by simp⟩
  | saturate => exact ⟨hi, h.force, h.tIndex, by simp⟩
  | skip _ hl | append _ hl => exact absurd hsame hl
  | accept _ hc => simp [h.shortFrame, h.force] at hc
  | retry => exact ⟨hi, h.force, rfl, by simp⟩
  | assemble hp => exact absurd hp h.ne_assemble
  | idle hp => rcases hp with hp | hp | hp | hp <;> simp [hp] at hphase

theorem State.Silent.step {s : State} (h : s.Silent) (hr : s.port.rst = false) (hline : s.port.lineIn = Level.high) :
    ∃ t, Machine.step s = .next t ∧ t.Silent := by
  obtain ⟨t, ht, hti⟩ := step_progress h.inv
  rcases step_accepts_or_polls hr ht with ⟨ha, -⟩ | ⟨-, u, hu, rfl⟩
  · exact absurd ha h.not_accepts
  · have hpolled : s.polled.Silent := ⟨inv_polled h.inv, h.force, h.tIndex, h.phase⟩
    obtain ⟨-, hf, hti', hp⟩ := hpolled.micro hline hu
    exact ⟨_, ht, hti, hf, hti', hp⟩

/-- Settles O58: every step after the accepted `TAKE` keeps the forced attempt silent. -/
theorem forcedTakeOnADeadLineNeverCompletes : Obligations.ForcedTakeOnADeadLineNeverCompletes := by
  intro k s hi hp hv hc h0 hr
  have hs := step_of_take (f := true) (hr 0 h0).1 ((command_of_valid hv).trans hc) hp
  suffices hrun : ∃ t, steps k s = .next t ∧ t.Silent ∧ t.rdValid = false by
    obtain ⟨t, ht, hsilent, hrd⟩ := hrun
    exact ⟨t, ht, hsilent.busy, hrd, hsilent.force⟩
  obtain ⟨k, rfl⟩ := Nat.exists_eq_add_one.2 h0
  induction k with
  | zero => exact ⟨_, by rw [steps_succ, hs]; rfl, ⟨step_keeps_inv hi hs, rfl, rfl, .inl rfl⟩, rfl⟩
  | succ k ih =>
    obtain ⟨t, ht, hsilent, -⟩ := ih k.succ_pos fun i hik => hr i (by omega)
    have hport : t.port = s.portAt (k + 1) := steps_portAt ht 0
    obtain ⟨hrst, hline⟩ := hr (k + 1) (by omega)
    rw [← hport] at hrst hline
    obtain ⟨u, hu, husilent⟩ := hsilent.step hrst hline
    exact ⟨u, by rw [steps_last, ht, andThen_next, hu], husilent, step_rdValid_eq_false hrst hu hsilent.ne_assemble⟩

end Sys2Proof.Machine
end

section
/-! SUPPORT. Two runs that agree but for the verdict flags and the record (41_decoder.md R119, R120): no step reads them, and the
`VALIDATE` and `ASSEMBLE` steps of a reading write all of them. -/

namespace Sys2Proof.Machine

/-! ## The report: verdict flags and record -/

/-- A state with the verdict flags and the record of another. -/
def State.withReport (s r : State) : State :=
  { s with
    stFresh := r.stFresh, stShort := r.stShort, stCsum := r.stCsum,
    rdHumInt := r.rdHumInt, rdHumFrac := r.rdHumFrac, rdTmpInt := r.rdTmpInt, rdTmpFrac := r.rdTmpFrac, rdTs := r.rdTs }

/-- Two states agree but for their reports. -/
def AgreeButReport (s s' : State) : Prop := s' = s.withReport s'

theorem AgreeButReport.eq {s s' : State} (h : AgreeButReport s s') (hv : SameVerdict s s') (hr : SameRecord s s') :
    s' = s := by
  obtain ⟨h1, h2, h3⟩ := hv
  obtain ⟨r1, r2, r3, r4, r5⟩ := hr
  refine Eq.trans h ?_
  rw [State.withReport, h1, h2, h3, r1, r2, r3, r4, r5]

/-- A micro-operation reads no report: it has the same effect beside another one. -/
theorem MicroEffect.withReport {s u : State} (h : MicroEffect s u) (r : State) :
    ∃ u', MicroEffect (s.withReport r) u' ∧ AgreeButReport u u' := by
  cases h with
  | idle h => exact ⟨_, .idle h, rfl⟩
  | lowHold h hc => exact ⟨_, .lowHold h hc, rfl⟩
  | lowEnd h hc => exact ⟨_, .lowEnd h hc, rfl⟩
  | highHold h hc => exact ⟨_, .highHold h hc, rfl⟩
  | highEnd h hc => exact ⟨_, .highEnd h hc, rfl⟩
  | count h hl hc => exact ⟨_, .count h hl hc, rfl⟩
  | saturate h hl hc => exact ⟨_, .saturate h hl hc, rfl⟩
  | skip h hl hc => exact ⟨_, .skip h hl hc, rfl⟩
  | append h hl hc hb => exact ⟨_, .append h hl hc hb, rfl⟩
  | accept h hc => exact ⟨_, .accept h hc, rfl⟩
  | retry h hc hf => exact ⟨_, .retry h hc hf, rfl⟩
  | assemble h => exact ⟨_, .assemble h, rfl⟩

/-- The two micro-operations of a reading write the report from what agrees. -/
theorem sameVerdict_of_validate {s s' u u' : State} (h : AgreeButReport s s') (hp : s.phase = Phase.validate)
    (hu : MicroEffect s u) (hu' : MicroEffect s' u') : SameVerdict u u' := by
  rw [h] at hu'
  obtain ⟨h1, h2, h3⟩ := hu.verdict hp
  obtain ⟨h1', h2', h3'⟩ := hu'.verdict hp
  exact ⟨h1'.trans h1.symm, h2'.trans h2.symm, h3'.trans h3.symm⟩

theorem sameRecord_of_assemble {s s' u u' : State} (h : AgreeButReport s s') (hp : s.phase = Phase.assemble)
    (hu : MicroEffect s u) (hu' : MicroEffect s' u') : SameRecord u u' := by
  rw [h] at hu'
  rw [hu.eq_of_assemble hp, hu'.eq_of_assemble hp]
  exact ⟨rfl, rfl, rfl, rfl, rfl⟩

theorem sameVerdict_of_kept {s s' u u' : State} (hp : s.phase ≠ Phase.validate) (hp' : s'.phase ≠ Phase.validate)
    (hu : MicroEffect s u) (hu' : MicroEffect s' u') (h : SameVerdict s s') : SameVerdict u u' := by
  obtain ⟨h1, h2, h3⟩ := h
  obtain ⟨k1, k2, k3⟩ := hu.sameVerdict hp
  obtain ⟨k1', k2', k3'⟩ := hu'.sameVerdict hp'
  exact ⟨k1'.trans (h1.trans k1.symm), k2'.trans (h2.trans k2.symm), k3'.trans (h3.trans k3.symm)⟩

/-! ## Two runs -/

/-- Two blocks in attempts of the same inputs: they agree but for the report, in `ASSEMBLE` also in the verdict, and after a
reading in everything. -/
structure Twins (s s' : State) : Prop where
  agree : AgreeButReport s s'
  verdict : s.phase = Phase.assemble → SameVerdict s s'
  reading : s.rdValid = true → s' = s

theorem Twins.refl (s : State) : Twins s s := ⟨rfl, fun _ => ⟨rfl, rfl, rfl⟩, fun _ => rfl⟩

/-- States that agree but for the report are twins where no reading is in the making. -/
theorem AgreeButReport.twins {s s' : State} (h : AgreeButReport s s') (hp : s.phase ≠ Phase.assemble)
    (hv : s.rdValid = false) : Twins s s' := ⟨h, fun ha => absurd ha hp, fun ht => by simp [hv] at ht⟩

theorem AgreeButReport.polled {s s' : State} (h : AgreeButReport s s') : AgreeButReport s.polled s'.polled :=
  (congrArg State.polled h :)

theorem AgreeButReport.advance {s s' : State} (h : AgreeButReport s s') : AgreeButReport s.advance s'.advance :=
  (congrArg State.advance h :)

theorem AgreeButReport.port_eq {s s' : State} (h : AgreeButReport s s') : s'.port = s.port :=
  (congrArg State.port h :)

theorem AgreeButReport.command_eq {s s' : State} (h : AgreeButReport s s') : s'.command = s.command :=
  (congrArg State.command h :)

theorem AgreeButReport.phase_eq {s s' : State} (h : AgreeButReport s s') : s'.phase = s.phase :=
  (congrArg State.phase h :)

/-- `ASSEMBLE` follows `VALIDATE` only (44_session.md R169). -/
theorem MicroEffect.validate_of_assemble {s u : State} (h : MicroEffect s u) (hu : u.phase = Phase.assemble) :
    s.phase = Phase.validate := by
  cases h with
  | accept h => exact h
  | idle h => rcases h with h | h | h | h <;> simp [h] at hu
  | lowHold h | highHold h | count h => simp [h] at hu
  | skip h | append h => dsimp only at hu; split at hu <;> simp [h] at hu
  | lowEnd | highEnd | saturate | retry | assemble => simp at hu

/-- Twins stay twins through a micro-operation. -/
theorem Twins.micro {s s' u : State} (h : Twins s s') (hu : MicroEffect s.polled u) :
    ∃ u', MicroEffect s'.polled u' ∧ Twins u.advance u'.advance := by
  have hpolled := h.agree.polled
  obtain ⟨u', hu', hagree⟩ := hu.withReport s'.polled
  rw [← hpolled] at hu'
  refine ⟨u', hu', hagree.advance, fun hp => ?_, fun hrd => ?_⟩
  · exact (sameVerdict_of_validate hpolled (hu.validate_of_assemble hp) hu hu' :)
  · have hp : s.phase = Phase.assemble := by simpa [hu.rdValid_eq] using hrd
    have hv := sameVerdict_of_kept (by simp [hp]) (by simp [h.agree.phase_eq, hp]) hu hu' (h.verdict hp)
    rw [hagree.eq hv (sameRecord_of_assemble hpolled hp hu hu')]

theorem Twins.step {s s' t : State} (h : Twins s s') (hs : step s = .next t) :
    ∃ t', Machine.step s' = .next t' ∧ Twins t t' := by
  have ha := h.agree
  have hrst : s'.port.rst = s.port.rst := by rw [ha.port_eq]
  cases hr : s.port.rst with
  | true =>
    have hin : s'.inputs = s.inputs := (congrArg State.inputs ha :)
    have hd : s'.draws = s.draws := (congrArg State.draws ha :)
    rw [step_of_reset hr] at hs
    cases hs
    exact ⟨_, by rw [step_of_reset (hrst.trans hr), hin, hd], .refl _⟩
  | false =>
    have hr' := hrst.trans hr
    rcases step_effect hr hs with ⟨hc, hp, rfl⟩ | ⟨f, hc, hp, rfl⟩ | ⟨hc, hp, rfl⟩ | ⟨hno, u, hu, rfl⟩
    · refine ⟨_, step_of_init hr' (ha.command_eq.trans hc) (ha.phase_eq.trans hp), AgreeButReport.twins ?_ ?_ rfl⟩
      · rw [ha.port_eq]
        exact (congrArg (fun x : State =>
          ({ x.clearPulses with phase := if s.port.initOk then Phase.ready else Phase.fatal } : State).advance) ha :)
      · cases s.port.initOk <;> simp
    · refine ⟨_, step_of_take hr' (ha.command_eq.trans hc) (ha.phase_eq.trans hp), AgreeButReport.twins ?_ (by simp) rfl⟩
      exact (congrArg (fun x : State => (startAttempt { x.clearPulses with force := f }).advance) ha :)
    · refine ⟨_, step_of_destroy hr' (ha.command_eq.trans hc) (ha.phase_eq.trans hp), AgreeButReport.twins ?_ (by simp) rfl⟩
      exact (congrArg (fun x : State => ({ x.clearPulses with phase := Phase.closed, lineOe := false } : State).advance) ha :)
    · obtain ⟨u', hu', htwins⟩ := h.micro hu
      have hno' : ¬ s'.accepts := by rwa [State.accepts, ha.command_eq, ha.phase_eq]
      exact ⟨_, step_of_microEffect hr' hno' hu', htwins⟩

theorem Twins.steps {s s' t : State} {k : Nat} (h : Twins s s') (hs : steps k s = .next t) :
    ∃ t', Machine.steps k s' = .next t' ∧ Twins t t' := by
  induction k generalizing s s' with
  | zero => cases hs; exact ⟨s', rfl, h⟩
  | succ k ih =>
    rw [steps_succ, andThen_eq_next] at hs
    obtain ⟨u, hu, ht⟩ := hs
    obtain ⟨u', hu', htwins⟩ := h.step hu
    obtain ⟨t', ht', htt⟩ := ih htwins ht
    exact ⟨t', by rw [steps_succ, hu', andThen_next, ht'], htt⟩

/-- An accepted `TAKE` makes twins of any two `READY` blocks with the same inputs to come (44_session.md R156). -/
theorem twins_of_take {s s' : State} (hi : s'.inputs = s.inputs) (hd : s'.draws = s.draws) (f : Bool) :
    Twins (startAttempt { s.clearPulses with force := f }).advance
      (startAttempt { s'.clearPulses with force := f }).advance := by
  refine AgreeButReport.twins ?_ (by simp) rfl
  simp only [AgreeButReport, State.withReport, State.advance, startAttempt, State.clearPulses, hi, hd]

/-- Settles O59: from the step that accepts the `TAKE` on the two blocks are twins. -/
theorem attemptsInheritNothing : Obligations.AttemptsInheritNothing := by
  intro s1 s2 k t1 hp1 hp2 hi hd hr hv hc h0 ht
  obtain ⟨k, rfl⟩ := Nat.exists_eq_add_one.2 h0
  have hport : s2.port = s1.port := portAt_congr hi.symm hd.symm 0
  obtain ⟨f, hf⟩ : ∃ f, s1.port.cmd = 0b10#2 ++ BitVec.ofBool f :=
    hc.elim (fun h => ⟨false, h⟩) fun h => ⟨true, h⟩
  have hs1 := step_of_take hr ((command_of_valid hv).trans hf) hp1
  have hcmd2 : s2.command = 0b10#2 ++ BitVec.ofBool f := by rw [command_of_valid (by rw [hport, hv]), hport, hf]
  have hs2 := step_of_take (by rw [hport, hr]) hcmd2 hp2
  rw [steps_succ, hs1, andThen_next] at ht
  obtain ⟨t2, ht2, hagree, -, hreading⟩ := (twins_of_take hi.symm hd.symm f).steps ht
  exact ⟨t2, by rw [steps_succ, hs2, andThen_next, ht2], hagree, hreading⟩

end Sys2Proof.Machine
end
